-- ==== Sys2Proof/Word.lean ====
section
/-!
DEFINITION. The bit-vector types of the GFU (spec 00_scope.md R6, R8). Nothing here can be repaired later, so only names
for widths stand in this file.
-/

namespace Sys2Proof

/-- A 32-bit word: a register, a command word, an offset (R6, R8). -/
abbrev Word := BitVec 32

/-- A byte: a DMEM location or an XTAB entry (R6, R38, R61). -/
abbrev Byte := BitVec 8

/-- A 9-bit table entry of YTAB or COEF (R39, R40). -/
abbrev Entry := BitVec 9

/-- A 16-bit seed (R85). -/
abbrev Seed := BitVec 16

/-- The 48-bit PRNG state (R43). -/
abbrev PrngState := BitVec 48

end Sys2Proof
end

