-- ==== Sys2Proof/Machine/Field.lean ====
section
/-!
DEFINITION. The arithmetic of GF(257) (spec 41_gf_arith.md R120 to R122): mod257, the field operations, and the inverse
ROM, hard-coded as R122 prints it.
-/

namespace Sys2Proof.Machine

/-- mod257: the Euclidean remainder by 257, in [0, 256] for every integer (R120). -/
def mod257 (x : Int) : Nat := (x % 257).toNat

/-- fadd (R121). -/
def fadd (a b : Nat) : Nat := mod257 ((a : Int) + b)

/-- fsub (R121). -/
def fsub (a b : Nat) : Nat := mod257 ((a : Int) - b)

/-- fmul (R121). -/
def fmul (a b : Nat) : Nat := mod257 ((a : Int) * b)

/-- fpow, with fpow(x, 0) = 1 for every x (R121). -/
def fpow (x e : Nat) : Nat := mod257 ((x : Int) ^ e)

/-- canon(v): v is a canonical field element (R41). -/
def canon (v : Nat) : Bool := decide (v ≤ 256)

/-- isByte(v): v fits in a byte (R41). -/
def isByte (v : Nat) : Bool := decide (v ≤ 255)

/-- INV[1] to INV[63]: the rows 0, 16, 32 and 48 of R122's table. -/
def invRows0 : List Nat :=
  [1, 129, 86, 193, 103, 43, 147, 225, 200, 180, 187, 150, 178, 202, 120,
   241, 121, 100, 230, 90, 49, 222, 190, 75, 72, 89, 238, 101, 195, 60, 199,
   249, 148, 189, 235, 50, 132, 115, 145, 45, 163, 153, 6, 111, 40, 95, 175,
   166, 21, 36, 126, 173, 97, 119, 243, 179, 248, 226, 61, 30, 59, 228, 102]

/-- INV[64] to INV[127]: the rows 64, 80, 96 and 112 of R122's table. -/
def invRows1 : List Nat :=
  [253, 87, 74, 234, 223, 149, 246, 181, 25, 169, 66, 24, 186, 247, 201, 244,
   151, 165, 210, 96, 205, 127, 3, 65, 184, 26, 20, 209, 176, 152, 216, 46,
   83, 53, 139, 135, 18, 28, 63, 5, 215, 164, 177, 245, 188, 224, 250, 44,
   218, 116, 124, 38, 113, 134, 159, 54, 15, 17, 158, 140, 114, 220, 51, 85]

/-- INV[128] to INV[191]: the rows 128, 144, 160 and 176 of R122's table. -/
def invRows2 : List Nat :=
  [255, 2, 172, 206, 37, 143, 117, 99, 240, 242, 203, 98, 123, 144, 219, 133,
   141, 39, 213, 7, 33, 69, 12, 80, 93, 42, 252, 194, 229, 239, 122, 118,
   204, 174, 211, 41, 105, 81, 48, 237, 231, 73, 192, 254, 130, 52, 161, 47,
   92, 106, 13, 56, 10, 71, 233, 191, 88, 232, 76, 11, 108, 34, 23, 183]

/-- INV[192] to INV[256]: the rows 192, 208, 224, 240 and 256 of R122's table. -/
def invRows3 : List Nat :=
  [170, 4, 155, 29, 198, 227, 196, 31, 9, 78, 14, 138, 160, 84, 131, 221,
   236, 91, 82, 162, 217, 146, 251, 104, 94, 212, 112, 142, 125, 207, 22, 68,
   109, 8, 58, 197, 62, 156, 19, 168, 185, 182, 67, 35, 208, 167, 27, 157,
   136, 16, 137, 55, 79, 107, 70, 77, 57, 32, 110, 214, 154, 64, 171, 128,
   256]

/-- The inverse ROM, INV[1] to INV[256] in order (R42, R122). -/
def invRom : List Nat := invRows0 ++ invRows1 ++ invRows2 ++ invRows3

/-- INV[i] for i in [1, 256] (R122). INV[0] does not exist and no rule reads it (R42); the 0 this function gives outside
the table is read by no command (notes/assumptions/13.md). -/
def inv (i : Nat) : Nat :=
  match i with
  | 0 => 0
  | j + 1 => invRom.getD j 0

end Sys2Proof.Machine
end

