-- ==== Sys2Proof/Config.lean ====
section
/-!
DEFINITION. What an implementation fixes: the constants of spec 00_scope.md R6, the open parameters of R7, and the free
values (constants without a body) that stand for what the spec leaves unspecified.
-/

namespace Sys2Proof

/-- How a 16-bit seed is widened before the XOR of R100 (R7, R85). -/
inductive SeedExt where
  | zero
  | sign
deriving DecidableEq, Repr

/-- The open parameters of 00_scope.md R7. They are not state of the GFU (R21): no step changes them, and a statement
about every state is a statement about every choice of them (notes/assumptions/1.md). -/
structure Params where
  /-- K_MAX: the largest threshold k. -/
  kMax : Nat
  /-- DMEM_SIZE: bytes of data memory. -/
  dmemSize : Nat
  /-- SEED_EXT: the widening of the seed. -/
  seedExt : SeedExt
  /-- UNIT_BASE: the host address of offset 0. -/
  unitBase : Nat
deriving DecidableEq, Repr

/-- The legal values of the parameters (R7). -/
abbrev Params.legal (p : Params) : Prop :=
  (2 ≤ p.kMax ∧ p.kMax ≤ 255) ∧
  (p.dmemSize % 4 = 0 ∧ 4 ≤ p.dmemSize ∧ p.dmemSize ≤ 0xFFF00000) ∧
  p.unitBase % 4 = 0

/-- The parameters State.reset takes: those of 95_test_vectors.md section 0, with SEED_EXT at its default (R7).
DESIGN CHOICE (notes/assumptions/1.md). -/
def Params.default : Params :=
  { kMax := 255, dmemSize := 4096, seedExt := .zero, unitBase := 0 }

/-- The host address of an offset (R60). -/
def Params.hostAddress (p : Params) (off : Word) : Nat := p.unitBase + off.toNat

namespace Config

/-- P, the field modulus (R6). -/
abbrev modulus : Nat := 257

/-- The entries of each table (R6, R49). -/
abbrev tableEntries : Nat := 256

/-- DMEM_OFF, the offset of the DMEM window (R6, R60). -/
abbrev dmemOff : Nat := 0x100000

/-- The value of the ID register (R24). -/
abbrev idWord : Word := 0x47460107#32

/-- A, the multiplier of the generator (40_prng_mask.md, R100, R101). -/
abbrev prngMultiplier : PrngState := 25214903917#48

/-- The largest value of the REPAIRS counter, where it saturates (R33). -/
abbrev repairsMax : Nat := 0xFFFFFFFF

/-! ### Free values

Each stands for a value the spec leaves unspecified. None has a body, so nothing can be proved of the value. -/

/-- A free 32-bit draw: a host read of an unstable register in the BUSY window (R256, U9). Applied to State.draws. -/
opaque freeWord : Nat → Word

/-- A free 9-bit draw: a read of a YTAB or COEF entry in the BUSY window (R256, U9), or an entry of an abandoned
command's write set (R251, U11). Applied to State.draws. -/
opaque freeEntry : Nat → Entry

/-- A free byte: a read of DMEM in the BUSY window (R256, U9), or a byte of an abandoned command's write set
(R251, U11). Applied to State.draws. -/
opaque freeByte : Nat → Byte

/-- What XTAB[j] holds after the given power-on until something writes it (R252, U10). -/
opaque powerOnXtab : Nat → Nat → Byte

/-- What YTAB[j] holds after the given power-on until something writes it (R252, U10). -/
opaque powerOnYtab : Nat → Nat → Entry

/-- What COEF[j] holds after the given power-on until something writes it (R252, U10). -/
opaque powerOnCoef : Nat → Nat → Entry

/-- What DMEM[a] holds after the given power-on until something writes it (R252, U10). -/
opaque powerOnDmem : Nat → Nat → Byte

end Config

end Sys2Proof
end

