-- ==== Sys2Proof/Machine/Memory.lean ====
section
/-!
DEFINITION. The one form in which DMEM and the three tables are held: the locations written since power-on, as a list of
(address, value) pairs with addresses strictly rising (spec 20_memory.md R61, 10_state.md R49, 70_reset_and_hazards.md
R252). What an unlisted location reads as is a free value (Machine/Ops.lean, notes/assumptions/3.md), so being listed
means having been written, and no entry is dropped for its value (notes/assumptions/4.md).
-/

namespace Sys2Proof.Machine

/-- Pairs of an address and what was last written there; at width 8 the pairs are Host.Cell. -/
abbrev Memory (w : Nat) := List (Nat × BitVec w)

/-- What was last written at an address, if anything was. -/
def Memory.find {w : Nat} : Memory w → Nat → Option (BitVec w)
  | [], _ => none
  | (b, v) :: rest, a => if a = b then some v else Memory.find rest a

/-- Write one location, keeping the addresses strictly rising. -/
def Memory.put {w : Nat} : Memory w → Nat → BitVec w → Memory w
  | [], a, v => [(a, v)]
  | (b, u) :: rest, a, v =>
    if a < b then (a, v) :: (b, u) :: rest
    else if a = b then (a, v) :: rest
    else (b, u) :: Memory.put rest a v

/-- The canonical form: addresses strictly rising. -/
abbrev Memory.wf {w : Nat} (m : Memory w) : Prop := m.Pairwise fun p q => p.1 < q.1

/-- Every listed address is below the bound. -/
abbrev Memory.below {w : Nat} (m : Memory w) (bound : Nat) : Prop := ∀ p ∈ m, p.1 < bound

end Sys2Proof.Machine
end

