-- ==== Sys2Proof/Syntax.lean ====
section
/-!
DEFINITION. The commands of the GFU: one constructor per row of spec/opcode_table.json (30_encoding.md R82). No command
has an operand in its word (R80, R84), so no constructor has an argument.
-/

namespace Sys2Proof

/-- A command (R82). -/
inductive Instr where
  /-- NOP, 49_system.md R200. -/
  | nop
  /-- RSEED, 40_prng_mask.md R103. -/
  | rseed
  /-- RNEXT, 40_prng_mask.md R104. -/
  | rnext
  /-- RGEN, 40_prng_mask.md R105. -/
  | rgen
  /-- RMASK, 40_prng_mask.md R106. -/
  | rmask
  /-- GMOD, 41_gf_arith.md R123. -/
  | gmod
  /-- GINV, 41_gf_arith.md R124. -/
  | ginv
  /-- GADD, 41_gf_arith.md R125. -/
  | gadd
  /-- GSUB, 41_gf_arith.md R126. -/
  | gsub
  /-- GMUL, 41_gf_arith.md R127. -/
  | gmul
  /-- PEVAL, 42_poly_share.md R142. -/
  | peval
  /-- PSHARE, 42_poly_share.md R143. -/
  | pshare
  /-- PSHAREBUF, 42_poly_share.md R144. -/
  | psharebuf
  /-- VSOLVE, 43_vandermonde.md R165. -/
  | vsolve
  /-- VRECON, 43_vandermonde.md R166. -/
  | vrecon
  /-- SHIDE, 44_stego.md R182. -/
  | shide
  /-- SREVEAL, 44_stego.md R183. -/
  | sreveal
deriving DecidableEq, Repr

end Sys2Proof
end

