-- ==== Sys2Proof/Decode.lean ====
section
/-!
DEFINITION. The command word (spec 30_encoding.md R80 to R83, R86): its fields, the decoder, total on every 32-bit word
and rejecting by name, then the encoder, written from the same opcode map, and the assembler's mnemonics.
-/

namespace Sys2Proof

/-- Why a word is ILLEGAL (R81). -/
inductive DecodeError where
  /-- Bits 31:8, the field RSV, are not 0. -/
  | reservedBits
  /-- Bits 7:0, the field OP, are no entry of the opcode map. -/
  | unassignedOpcode
deriving DecidableEq, Repr

/-- The field OP, bits 7:0 of a command word (R80). -/
def opField (c : Word) : Byte := c.extractLsb' 0 8

/-- The field RSV, bits 31:8 of a command word (R80). -/
def rsvField (c : Word) : BitVec 24 := c.extractLsb' 8 24

/-- OPMAP: the 17 opcodes (R82). -/
def opMap (op : Byte) : Option Instr :=
  match op.toNat with
  | 0x00 => some .nop
  | 0x10 => some .rseed
  | 0x11 => some .rnext
  | 0x12 => some .rgen
  | 0x13 => some .rmask
  | 0x20 => some .gmod
  | 0x21 => some .ginv
  | 0x22 => some .gadd
  | 0x23 => some .gsub
  | 0x24 => some .gmul
  | 0x30 => some .peval
  | 0x31 => some .pshare
  | 0x32 => some .psharebuf
  | 0x40 => some .vsolve
  | 0x41 => some .vrecon
  | 0x50 => some .shide
  | 0x51 => some .sreveal
  | _ => none

/-- decode(c) of R81. -/
def decode (c : Word) : Except DecodeError Instr :=
  if rsvField c ≠ 0#24 then .error .reservedBits
  else
    match opMap (opField c) with
    | some i => .ok i
    | none => .error .unassignedOpcode

/-- The instruction the decoder reads from a row of the opcode table whose bits are w: one 32-bit word (R80), every bit
above nbits 0. -/
def decodeTableWord (nbits w : Nat) : Option Instr :=
  match decode (BitVec.ofNat 32 (w % 2 ^ nbits)) with
  | .ok i => some i
  | .error _ => none

/-- The opcode of a command (R82). -/
def opcode (i : Instr) : Byte :=
  match i with
  | .nop => 0x00#8
  | .rseed => 0x10#8
  | .rnext => 0x11#8
  | .rgen => 0x12#8
  | .rmask => 0x13#8
  | .gmod => 0x20#8
  | .ginv => 0x21#8
  | .gadd => 0x22#8
  | .gsub => 0x23#8
  | .gmul => 0x24#8
  | .peval => 0x30#8
  | .pshare => 0x31#8
  | .psharebuf => 0x32#8
  | .vsolve => 0x40#8
  | .vrecon => 0x41#8
  | .shide => 0x50#8
  | .sreveal => 0x51#8

/-- The command word of a command: RSV = 0 above OP (R80, R82). -/
def encode (i : Instr) : Word := 0#24 ++ opcode i

/-- The assembler's spelling of a command (R82, R88). -/
def mnemonic (i : Instr) : String :=
  match i with
  | .nop => "NOP"
  | .rseed => "RSEED"
  | .rnext => "RNEXT"
  | .rgen => "RGEN"
  | .rmask => "RMASK"
  | .gmod => "GMOD"
  | .ginv => "GINV"
  | .gadd => "GADD"
  | .gsub => "GSUB"
  | .gmul => "GMUL"
  | .peval => "PEVAL"
  | .pshare => "PSHARE"
  | .psharebuf => "PSHAREBUF"
  | .vsolve => "VSOLVE"
  | .vrecon => "VRECON"
  | .shide => "SHIDE"
  | .sreveal => "SREVEAL"

end Sys2Proof
end

