-- ==== Sys2Proof/Machine/Script.lean ====
section
/-!
DEFINITION. The host script of spec 30_encoding.md R87 and R88: the statements the host performs, each bus statement with
its transaction, and the pseudo-statements with their expansions. Script variables and labels are numbers
(notes/assumptions/11.md).
-/

namespace Sys2Proof

/-- The width of a host access (R62). -/
inductive Width where
  | w8
  | w16
  | w32
deriving DecidableEq, Repr

/-- The bytes of an access. -/
def Width.bytes (w : Width) : Nat :=
  match w with
  | .w8 => 1
  | .w16 => 2
  | .w32 => 4

/-- A value of a script statement: a number, or a script variable read earlier (R87). -/
inductive Value where
  | num (v : Word)
  | var (name : Nat)
deriving DecidableEq, Repr

/-- A primitive statement of the host script (R87). -/
inductive Stmt where
  /-- W, WH and WB: a write of the width. -/
  | write (width : Width) (off : Word) (v : Value)
  /-- R, RH and RB: a read of the width into a script variable. -/
  | read (width : Width) (off : Word) (name : Nat)
  /-- A label: a position in the script. -/
  | label (l : Nat)
  /-- BIT: go to the label if bit b of the variable is 1. -/
  | bit (name : Nat) (b : Nat) (l : Nat)
  /-- EXPECT: an assertion, the variable holds the value. -/
  | expect (name : Nat) (v : Value)
  /-- J: go to the label. -/
  | jump (l : Nat)
  /-- END: the host stops here. -/
  | stop
deriving DecidableEq, Repr

namespace Offset

/-! The symbols of the offset space (R87, R48). An indexed symbol whose value would reach 2^32 is no 32-bit offset: R87 does not
say what it is, and the assembler rejects its line; these functions, total as they must be, keep its low 32 bits. DESIGN
CHOICE (notes/assumptions/22.md). -/

abbrev id : Word := 0x000#32
abbrev ctrl : Word := 0x004#32
abbrev status : Word := 0x008#32
abbrev cmd : Word := 0x00C#32
abbrev arg0 : Word := 0x010#32
abbrev arg1 : Word := 0x014#32
abbrev arg2 : Word := 0x018#32
abbrev arg3 : Word := 0x01C#32
abbrev res0 : Word := 0x020#32
abbrev cfg : Word := 0x028#32
abbrev prngLo : Word := 0x02C#32
abbrev prngHi : Word := 0x030#32
abbrev repairs : Word := 0x034#32
abbrev errinfo : Word := 0x038#32
abbrev param : Word := 0x03C#32
abbrev dmemsz : Word := 0x040#32

/-- The offset of XTAB[j] (R60, R87); meant for offsets below 2^32 (notes/assumptions/22.md). -/
def xtab (j : Nat) : Word := BitVec.ofNat 32 (0x400 + 4 * j)

/-- The offset of YTAB[j] (R60, R87); meant for offsets below 2^32 (notes/assumptions/22.md). -/
def ytab (j : Nat) : Word := BitVec.ofNat 32 (0x800 + 4 * j)

/-- The offset of COEF[j] (R60, R87); meant for offsets below 2^32 (notes/assumptions/22.md). -/
def coef (j : Nat) : Word := BitVec.ofNat 32 (0xC00 + 4 * j)

/-- The offset of DMEM[a] (R60, R87); meant for offsets below 2^32 (notes/assumptions/22.md). -/
def dmem (a : Nat) : Word := BitVec.ofNat 32 (0x100000 + a)

end Offset

namespace Pseudo

/-! The pseudo-statements of R88. The fresh label of a POLL is an argument. -/

/-- The script variable s that POLL reads STATUS into (R88). -/
abbrev statusVar : Nat := 0

/-- POLL: wait until BUSY = 0. -/
def poll (l : Nat) : List Stmt :=
  [.label l, .read .w32 Offset.status statusVar, .bit statusVar 0 l]

/-- RUN: write the command word, then POLL. -/
def run (i : Instr) (l : Nat) : List Stmt :=
  .write .w32 Offset.cmd (.num (encode i)) :: poll l

/-- ARGS with one to four values, in increasing offset. -/
def args (vs : List Value) : List Stmt :=
  (List.zip [Offset.arg0, Offset.arg1, Offset.arg2, Offset.arg3] vs).map fun p => .write .w32 p.1 p.2

/-- (n << 8) | k of SETKN, a number of any size. -/
def setKNValue (k n : Nat) : Nat := (n <<< 8) ||| k

/-- SETKN: write CFG with (n << 8) | k. R88 does not say what is written when that does not fit 32 bits: the assembler
rejects the line, and this function keeps the low 32 bits. DESIGN CHOICE (notes/assumptions/22.md). -/
def setKN (k n : Nat) : List Stmt :=
  [.write .w32 Offset.cfg (.num (BitVec.ofNat 32 (setKNValue k n)))]

/-- CLEAR: write 0xFF to STATUS. -/
def clear : List Stmt := [.write .w32 Offset.status (.num 0xFF#32)]

/-- LOADB: byte writes from address a upward; each writes bits 7:0 of its value, as WB does (R87, R88). -/
def loadB : Nat → List Value → List Stmt
  | _, [] => []
  | a, v :: vs => .write .w8 (Offset.dmem a) v :: loadB (a + 1) vs

/-- The scalar shorthands (GINV a, GADD a, b, RSEED s, PEVAL x and the like): ARGS, then RUN. -/
def scalar (i : Instr) (vs : List Value) (l : Nat) : List Stmt := args vs ++ run i l

end Pseudo

/-- The position of a label: the first statement that declares it. -/
def findLabel : List Stmt → Nat → Option Nat
  | [], _ => none
  | st :: rest, l => if st = .label l then some 0 else (findLabel rest l).map (· + 1)

end Sys2Proof
end

