-- ==== Sys2Proof/Machine/State.lean ====
section
/-!
DEFINITION. The state of the GFU and of its host, as plain data (spec 10_state.md R20 to R46, 20_memory.md R61, 30_encoding.md R87), the
reasons a step can stop, and the state right after a power-on reset (70_reset_and_hazards.md R250, R252).
-/

namespace Sys2Proof.Machine

/-- The kinds of engine error (60_exceptions.md R220); code 0x00 NONE is no error. -/
inductive ErrorKind where
  | illegalCmd
  | invalidArgument
  | malformedShadow
  | addressError
  | arithmeticFailure
deriving DecidableEq, Repr

/-- The engine phase (R45): IDLE, or BUSY(c) with c the accepted command word. -/
inductive Phase where
  | idle
  | busy (c : Word)
deriving DecidableEq, Repr

/-- The fields of STATUS (R26). The reserved bits 31:16 always read 0, so nothing is held for them. -/
structure Status where
  busy : Bool
  done : Bool
  err : Bool
  rpr : Bool
  wrap : Bool
  drop : Bool
  hzd : Bool
  accerr : Bool
  errcode : Byte
deriving DecidableEq, Repr

/-- STATUS at reset: 0x0000_0000 (R26). -/
def Status.zero : Status :=
  { busy := false, done := false, err := false, rpr := false, wrap := false, drop := false, hzd := false,
    accerr := false, errcode := 0#8 }

/-- The host: its script, the position of its next statement and its script variables, the latest first (R87). -/
structure HostAgent where
  script : List Stmt
  position : Nat
  vars : List (Nat × Word)
deriving DecidableEq, Repr

/-- Who acts in a step: the host, the engine (R20), or the power supply, with a power-on reset (R233, R250). -/
inductive Turn where
  | host
  | engine
  | powerOn
deriving DecidableEq, Repr

/-- The whole machine. -/
structure State where
  /-- The open parameters (R7): the MODEL's field, which no step changes (notes/assumptions/1.md). -/
  params : Params
  /-- CTRL.IE (R25). -/
  ie : Bool
  /-- STATUS (R26). -/
  status : Status
  /-- ARG0 (R29). -/
  arg0 : Word
  /-- ARG1 (R29). -/
  arg1 : Word
  /-- ARG2 (R29). -/
  arg2 : Word
  /-- ARG3 (R29). -/
  arg3 : Word
  /-- RES0 (R30). -/
  res0 : Word
  /-- CFG.K (R31). -/
  cfgK : Byte
  /-- CFG.N (R31). -/
  cfgN : Byte
  /-- S, seen by the host as PRNG_LO and PRNG_HI (R32, R43). -/
  prng : PrngState
  /-- REPAIRS (R33). -/
  repairs : Word
  /-- ERRINFO (R34). -/
  errinfo : Word
  /-- XTAB: the entries written since power-on (R38, R252). -/
  xtab : List (Nat × Byte)
  /-- YTAB: the entries written since power-on (R39, R252). -/
  ytab : List (Nat × Entry)
  /-- COEF: the entries written since power-on (R40, R252). -/
  coef : List (Nat × Entry)
  /-- DMEM: the bytes written since power-on (R61, R252). -/
  dmem : List Host.Cell
  /-- The engine phase (R45). -/
  phase : Phase
  /-- The MODEL's field: how many power-on resets have happened since State.reset (notes/assumptions/3.md). -/
  powerOns : Nat
  /-- The MODEL's field: how many free values have been drawn (notes/assumptions/5.md). -/
  draws : Nat
  /-- The host (R20, R87), whose script is loaded from outside (notes/assumptions/2.md). -/
  host : HostAgent
  /-- The MODEL's field: who acts in the coming steps; after its end, the engine while BUSY, else the host
  (R67, R260, notes/assumptions/7.md). -/
  schedule : List Turn
deriving DecidableEq, Repr

/-- Why a run stops at a fault. No command raises one: a command's error is a next state (60_exceptions.md R222). -/
inductive Fault where
  /-- Raised by the host's EXPECT statement when the variable does not hold the value (R87). Safe: the model stops
  where the spec says no more (notes/assumptions/10.md). -/
  | expectFailed
deriving DecidableEq, Repr

/-- Why the model gives no meaning to a step. -/
inductive Refusal where
  /-- Raised by exec for a command that has no meaning yet; no arm is left that does. Safe. -/
  | notModelled (mnemonic : String)
  /-- Raised by a host statement that uses a script variable nothing has read: no script of R87. Safe
  (notes/assumptions/11.md). -/
  | unboundVariable (name : Nat)
  /-- Raised by a host statement that goes to a label the script does not have: no script of R87. Safe
  (notes/assumptions/11.md). -/
  | missingLabel (l : Nat)
deriving DecidableEq, Repr

/-- The state right after a power-on reset of a GFU with the given parameters (R250, R252): every CSR, S and the phase at
the value the spec states; no table entry and no DMEM byte written; no host script. -/
def State.resetWith (p : Params) : State :=
  { params := p
    ie := false
    status := Status.zero
    arg0 := 0#32
    arg1 := 0#32
    arg2 := 0#32
    arg3 := 0#32
    res0 := 0#32
    cfgK := 0#8
    cfgN := 0#8
    prng := 0#48
    repairs := 0#32
    errinfo := 0#32
    xtab := []
    ytab := []
    coef := []
    dmem := []
    phase := .idle
    powerOns := 0
    draws := 0
    host := { script := [], position := 0, vars := [] }
    schedule := [] }

/-- The machine right after reset, with the parameters of 95_test_vectors.md section 0 (notes/assumptions/1.md). -/
def State.reset : State := State.resetWith Params.default

end Sys2Proof.Machine
end

