-- ==== Sys2Proof/Machine/Flags.lean ====
section
/-!
DEFINITION. Every flag computation of the spec: STATUS as a word (10_state.md R26), its write-1-to-clear (R27), the flags
of acceptance, completion and errors (49_system.md R201, R202; 60_exceptions.md R222), the sticky flags RPR, WRAP, DROP,
HZD and ACCERR, and the interrupt output (R46).
-/

namespace Sys2Proof.Machine

/-- The value of STATUS.ERRCODE for each kind of error (R220). -/
def ErrorKind.code (k : ErrorKind) : Byte :=
  match k with
  | .illegalCmd => 0x01#8
  | .invalidArgument => 0x02#8
  | .malformedShadow => 0x03#8
  | .addressError => 0x04#8
  | .arithmeticFailure => 0x05#8

/-- STATUS as the host reads it: ERRCODE in bits 15:8, ACCERR down to BUSY in bits 7 to 0, bits 31:16 zero (R26). -/
def Status.word (t : Status) : Word :=
  (0#16 ++ t.errcode) ++
    (BitVec.ofBool t.accerr ++ BitVec.ofBool t.hzd ++ BitVec.ofBool t.drop ++ BitVec.ofBool t.wrap ++
      BitVec.ofBool t.rpr ++ BitVec.ofBool t.err ++ BitVec.ofBool t.done ++ BitVec.ofBool t.busy)

/-- The flags after a host write of w to STATUS (R27): a 1 clears DONE, ERR with ERRCODE, RPR, WRAP, DROP, HZD or
ACCERR; BUSY and the reserved bits cannot be written. -/
def Status.writeOneToClear (t : Status) (w : Word) : Status :=
  { t with
    done := t.done && !w.getLsbD 1
    err := t.err && !w.getLsbD 2
    rpr := t.rpr && !w.getLsbD 3
    wrap := t.wrap && !w.getLsbD 4
    drop := t.drop && !w.getLsbD 5
    hzd := t.hzd && !w.getLsbD 6
    accerr := t.accerr && !w.getLsbD 7
    errcode := if w.getLsbD 2 then 0#8 else t.errcode }

/-- A host write of w to STATUS: the flags, and ERRINFO with ERR (R27, R224). -/
def State.writeStatus (s : State) (w : Word) : State :=
  { s with
    status := s.status.writeOneToClear w
    errinfo := if w.getLsbD 2 then 0#32 else s.errinfo }

/-- RPR is set when at least one repair was made, and otherwise left as it is (R143, R144). -/
def State.flagRepairs (s : State) (r : Nat) : State :=
  { s with status := { s.status with rpr := s.status.rpr || decide (0 < r) } }

/-- WRAP is set when a stored coefficient was 256, and otherwise left as it is (R166). -/
def State.flagWrap (s : State) (wrapped : Bool) : State :=
  { s with status := { s.status with wrap := s.status.wrap || wrapped } }

/-- DROP: a CMD write that was not accepted (R201). -/
def State.flagDrop (s : State) : State := { s with status := { s.status with drop := true } }

/-- HZD: a host write ignored because BUSY = 1 (R255). -/
def State.flagHazard (s : State) : State := { s with status := { s.status with hzd := true } }

/-- ACCERR: an illegal host access (R63). -/
def State.flagAccess (s : State) : State := { s with status := { s.status with accerr := true } }

/-- The interrupt output, a level: CTRL.IE ∧ STATUS.DONE (R46, R226). -/
def State.irq (s : State) : Bool := s.ie && s.status.done

end Sys2Proof.Machine
end

