-- ==== Sys2Proof/Machine/Ops.lean ====
section
/-!
DEFINITION. The named operations over registers, tables and DMEM (spec 00_scope.md R11), the loops the command rules use,
acceptance and completion (49_system.md R201, R202), error entry as ONE shared operation and the return from it
(60_exceptions.md R222 to R224), and the power-on and soft resets (70_reset_and_hazards.md R250 to R252).
-/

namespace Sys2Proof.Machine

/-! ### Loops (R11: "for i in [a, b) runs i upward, one value after another") -/

/-- for i in [0, n): the body at i, on what the passes before it left. -/
def forUp {α : Type} (n : Nat) (body : Nat → α → α) (x : α) : α :=
  match n with
  | 0 => x
  | m + 1 => body m (forUp m body x)

/-- for i in [0, n) with a body that may raise an error, which ends the loop. -/
def forUpE {ε α : Type} (n : Nat) (body : Nat → α → Except ε α) (x : α) : Except ε α :=
  match n with
  | 0 => .ok x
  | m + 1 =>
    match forUpE m body x with
    | .ok y => body m y
    | .error e => .error e

/-- The least j in [0, n) of which the test holds: the entry the first failing check of a loop names (R221). -/
def firstIn (n : Nat) (test : Nat → Bool) : Option Nat := (List.range n).find? test

/-! ### Registers -/

/-- RES0 <- zext_32(v) (R30). -/
def State.setRes0 (s : State) (v : Nat) : State := { s with res0 := BitVec.ofNat 32 v }

/-- S <- v (R43). -/
def State.setPrng (s : State) (v : PrngState) : State := { s with prng := v }

/-- REPAIRS <- min(r, 2^32 − 1) (R33). -/
def State.setRepairs (s : State) (r : Nat) : State :=
  { s with repairs := BitVec.ofNat 32 (min r Config.repairsMax) }

/-! ### Tables and DMEM: one read and one write each -/

/-- XTAB[j] (R38): what was last written, else the power-on value (R252). -/
def State.xEntry (s : State) (j : Nat) : Byte :=
  (Memory.find s.xtab j).getD (Config.powerOnXtab s.powerOns j)

/-- YTAB[j] (R39): what was last written, else the power-on value (R252). -/
def State.yEntry (s : State) (j : Nat) : Entry :=
  (Memory.find s.ytab j).getD (Config.powerOnYtab s.powerOns j)

/-- COEF[j] (R40): what was last written, else the power-on value (R252). -/
def State.coefEntry (s : State) (j : Nat) : Entry :=
  (Memory.find s.coef j).getD (Config.powerOnCoef s.powerOns j)

/-- DMEM[a] (R61): what was last written, else the power-on value (R252). -/
def State.readByte (s : State) (a : Nat) : Byte :=
  (Memory.find s.dmem a).getD (Config.powerOnDmem s.powerOns a)

/-- XTAB[j] <- v. -/
def State.setX (s : State) (j : Nat) (v : Byte) : State := { s with xtab := Memory.put s.xtab j v }

/-- YTAB[j] <- v. -/
def State.setY (s : State) (j : Nat) (v : Entry) : State := { s with ytab := Memory.put s.ytab j v }

/-- COEF[j] <- v. -/
def State.setCoef (s : State) (j : Nat) (v : Entry) : State := { s with coef := Memory.put s.coef j v }

/-- DMEM[a] <- v. -/
def State.writeByte (s : State) (a : Nat) (v : Byte) : State := { s with dmem := Memory.put s.dmem a v }

/-- MemRead(a, n): n bytes little-endian (R11, R64). -/
def State.memRead (s : State) (a n : Nat) : Nat :=
  ((List.range n).map fun i => (s.readByte (a + i)).toNat * 2 ^ (8 * i)).sum

/-- MemWrite(a, n, v): byte i of v to DMEM[a+i], in increasing i (R11, R64). -/
def State.memWrite (s : State) (a n : Nat) (v : Word) : State :=
  forUp n (fun i t => t.writeByte (a + i) (v.extractLsb' (8 * i) 8)) s

/-- inRange(base, len), in exact integers (R66). -/
def State.inRange (s : State) (base len : Nat) : Bool :=
  decide (len = 0 ∨ base + len ≤ s.params.dmemSize)

/-! ### Error entry and return -/

/-- What raise Error(code, info) gives (R11, R222). -/
structure EngineError where
  kind : ErrorKind
  info : Word
deriving DecidableEq, Repr

/-- The part of the completion step every command shares: phase IDLE, BUSY clear, DONE set (R202). -/
def State.complete (s : State) : State :=
  { s with phase := .idle, status := { s.status with busy := false, done := true } }

/-- ERROR ENTRY: ERR, ERRCODE and ERRINFO are written and the command completes; nothing else is saved or changed
(R222, R223). -/
def State.takeError (s : State) (e : EngineError) : State :=
  State.complete { s with
    status := { s.status with err := true, errcode := e.kind.code }
    errinfo := e.info }

/-- RETURN FROM AN ERROR: the host's write of STATUS with bit 2 set clears ERR, ERRCODE and ERRINFO (R224, R27). -/
def State.returnFromError (s : State) : State := s.writeStatus 0x4#32

/-- The completion step of a performed command (R202): on success the state the command left, else the error entry on
the state before the command. -/
def finish (s : State) (outcome : Except EngineError State) : Host.Outcome State Fault Refusal :=
  match outcome with
  | .ok t => .next t.complete
  | .error e => .next (s.takeError e)

/-! ### Acceptance -/

/-- Offer a word to the engine: a host write to CMD (R201). -/
def State.offer (s : State) (w : Word) : State :=
  if s.phase ≠ .idle ∨ s.status.err = true then s.flagDrop
  else { s with phase := .busy w, status := { s.status with busy := true, done := false } }

/-! ### Free values (R251, R252, R256) -/

/-- A free 32-bit value, and the state with the draw counted. -/
def State.drawWord (s : State) : Word × State := (Config.freeWord s.draws, { s with draws := s.draws + 1 })

/-- A free 9-bit value, and the state with the draw counted. -/
def State.drawEntry (s : State) : Entry × State := (Config.freeEntry s.draws, { s with draws := s.draws + 1 })

/-- A free byte, and the state with the draw counted. -/
def State.drawByte (s : State) : Byte × State := (Config.freeByte s.draws, { s with draws := s.draws + 1 })

/-- DMEM[a] takes an unspecified value; a location past DMEM_SIZE does not exist and takes none (R251, R61). -/
def State.scrambleByte (s : State) (a : Nat) : State :=
  if a < s.params.dmemSize then s.drawByte.2.writeByte a s.drawByte.1 else s

/-- DMEM[a .. a+len) takes unspecified values. -/
def State.scrambleBytes (s : State) (a len : Nat) : State := forUp len (fun i t => t.scrambleByte (a + i)) s

/-- COEF[0..k) takes unspecified values. -/
def State.scrambleCoef (s : State) (k : Nat) : State :=
  forUp k (fun j t => t.drawEntry.2.setCoef j t.drawEntry.1) s

/-- YTAB[0..n) takes unspecified values. -/
def State.scrambleY (s : State) (n : Nat) : State :=
  forUp n (fun j t => t.drawEntry.2.setY j t.drawEntry.1) s

/-! ### Reset -/

/-- Every CSR, S, the phase and irq at the reset value (R250). -/
def State.resetRegisters (s : State) : State :=
  { s with
    ie := false
    status := Status.zero
    arg0 := 0#32
    arg1 := 0#32
    arg2 := 0#32
    arg3 := 0#32
    res0 := 0#32
    cfgK := 0#8
    cfgN := 0#8
    prng := 0#48
    repairs := 0#32
    errinfo := 0#32
    phase := .idle }

/-- A power-on reset (R250, R252): the registers, and every table entry and DMEM byte at a new unspecified value. -/
def State.powerOnReset (s : State) : State :=
  { s.resetRegisters with xtab := [], ytab := [], coef := [], dmem := [], powerOns := s.powerOns + 1 }

/-- Every location of an abandoned command's write set that a soft reset does not reset takes an unspecified value
(R251, R47, U11; notes/assumptions/6.md). A word that is no command has no write set. -/
def State.abandon (s : State) (c : Word) : State :=
  match decode c with
  | .error _ => s
  | .ok i =>
    match i with
    | .nop => s
    | .rseed => s
    | .rnext => s
    | .rgen => s.scrambleBytes s.arg0.toNat s.arg2.toNat
    | .rmask => s.scrambleBytes s.arg0.toNat s.arg2.toNat
    | .gmod => s
    | .ginv => s
    | .gadd => s
    | .gsub => s
    | .gmul => s
    | .peval => s
    | .pshare => (s.scrambleCoef s.cfgK.toNat).scrambleY s.cfgN.toNat
    | .psharebuf =>
      forUp s.cfgN.toNat
        (fun i t => t.scrambleBytes (s.arg0.toNat + i * s.arg3.toNat) s.arg2.toNat)
        (s.scrambleBytes s.arg1.toNat (s.arg2.toNat * s.cfgK.toNat))
    | .vsolve => s.scrambleCoef s.cfgK.toNat
    | .vrecon => s.scrambleBytes s.arg0.toNat (s.arg2.toNat * s.cfgK.toNat)
    | .shide => s.scrambleBytes s.arg0.toNat (8 * s.arg2.toNat)
    | .sreveal => s.scrambleBytes s.arg0.toNat s.arg2.toNat

/-- A soft reset (R251): a command in progress is abandoned, then every CSR, S, the phase and irq are reset. -/
def State.softReset (s : State) : State :=
  match s.phase with
  | .idle => s.resetRegisters
  | .busy c => (s.abandon c).resetRegisters

end Sys2Proof.Machine
end

