-- ==== Sys2Proof/Machine/Operands.lean ====
section
/-!
DEFINITION. Every operand form of the commands, with the check it makes (spec 30_encoding.md R84, R85; 10_state.md R31, R38 to R41;
20_memory.md R66; 43_vandermonde.md R164). Each answers the operand, or the error of the first check that fails.
-/

namespace Sys2Proof.Machine

/-- A seed operand: bits 15:0 of an ARG register, whose bits 31:16 must be 0 (R85). The offset is the register's. -/
def seedOperand (arg : Word) (off : Word) : Except EngineError Seed :=
  if arg.extractLsb' 16 16 ≠ 0#16 then .error ⟨.invalidArgument, off⟩
  else .ok (arg.extractLsb' 0 16)

/-- A canonical field operand in an ARG register, read as unsigned (R41, R84). -/
def canonOperand (arg : Word) (off : Word) : Except EngineError Nat :=
  if canon arg.toNat then .ok arg.toNat else .error ⟨.invalidArgument, off⟩

/-- CFG.K where only k is used: 2 ≤ K ≤ K_MAX (R31). -/
def thresholdOperand (s : State) : Except EngineError Nat :=
  if s.cfgK.toNat < 2 ∨ s.params.kMax < s.cfgK.toNat then .error ⟨.invalidArgument, Offset.cfg⟩
  else .ok s.cfgK.toNat

/-- CFG.K and CFG.N of the sharing commands: also K ≤ N (R31). -/
def shareOperand (s : State) : Except EngineError (Nat × Nat) :=
  if s.cfgK.toNat < 2 ∨ s.params.kMax < s.cfgK.toNat ∨ s.cfgN.toNat < s.cfgK.toNat then
    .error ⟨.invalidArgument, Offset.cfg⟩
  else .ok (s.cfgK.toNat, s.cfgN.toNat)

/-- The entries [0, k) of a table as numbers, each of which must pass the test; the first that does not is the error,
at its offset (R39, R40, R221). -/
def entriesOperand (k : Nat) (entry : Nat → Entry) (test : Nat → Bool) (offset : Nat → Word) :
    Except EngineError (List Nat) :=
  match firstIn k fun j => !test (entry j).toNat with
  | some j => .error ⟨.invalidArgument, offset j⟩
  | none => .ok ((List.range k).map fun j => (entry j).toNat)

/-- COEF[0..k) as canonical coefficients (PEVAL, R142). -/
def canonCoefOperand (s : State) (k : Nat) : Except EngineError (List Nat) :=
  entriesOperand k s.coefEntry canon Offset.coef

/-- COEF[0..k) as bytes (PSHARE, R143). -/
def byteCoefOperand (s : State) (k : Nat) : Except EngineError (List Nat) :=
  entriesOperand k s.coefEntry isByte Offset.coef

/-- YTAB[0..k) as canonical right-hand sides (VSOLVE, R165). -/
def rightSideOperand (s : State) (k : Nat) : Except EngineError (List Nat) :=
  entriesOperand k s.yEntry canon Offset.ytab

/-- XTAB[j] is zero, or equal to an earlier entry (R164). -/
def badPoint (s : State) (j : Nat) : Bool :=
  decide (s.xEntry j = 0#8) || (List.range j).any fun i => decide (s.xEntry i = s.xEntry j)

/-- XTAB[0..k) after the point check xcheck(k) (R164). -/
def pointsOperand (s : State) (k : Nat) : Except EngineError (List Nat) :=
  match firstIn k (badPoint s) with
  | some j => .error ⟨.malformedShadow, Offset.xtab j⟩
  | none => .ok ((List.range k).map fun j => (s.xEntry j).toNat)

/-- A DMEM range whose base is in the ARG register at the offset (R66). -/
def rangeOperand (s : State) (base len : Nat) (off : Word) : Except EngineError Unit :=
  if s.inRange base len then .ok () else .error ⟨.addressError, off⟩

/-- The strided DMEM ranges of m buffers of len bytes, in increasing index (R144, R166). -/
def stridedOperand (s : State) (m base stride len : Nat) (off : Word) : Except EngineError Unit :=
  match firstIn m fun i => !s.inRange (base + i * stride) len with
  | some _ => .error ⟨.addressError, off⟩
  | none => .ok ()

end Sys2Proof.Machine
end

