-- ==== Sys2Proof/Machine/GfArith.lean ====
section
/-!
DEFINITION. The GF(257) arithmetic family: GMOD, GINV, GADD, GSUB, GMUL (spec 41_gf_arith.md R123 to R127).
-/

namespace Sys2Proof.Machine

/-- GMOD: ARG0 read as a signed 32-bit integer (R123). -/
def performGmod (s : State) : Except EngineError State := pure (s.setRes0 (mod257 s.arg0.toInt))

/-- GINV: the range check comes before the zero check (R124). -/
def performGinv (s : State) : Except EngineError State := do
  let a ← canonOperand s.arg0 Offset.arg0
  if a = 0 then .error ⟨.arithmeticFailure, Offset.arg0⟩ else pure (s.setRes0 (inv a))

/-- A field operation on ARG0 and ARG1, ARG0 checked first (R125 to R127). -/
def performField (op : Nat → Nat → Nat) (s : State) : Except EngineError State := do
  let a ← canonOperand s.arg0 Offset.arg0
  let b ← canonOperand s.arg1 Offset.arg1
  pure (s.setRes0 (op a b))

/-- GMOD with its completion (R123, R202). -/
def execGmod (s : State) : Host.Outcome State Fault Refusal := finish s (performGmod s)

/-- GINV with its completion (R124, R202). -/
def execGinv (s : State) : Host.Outcome State Fault Refusal := finish s (performGinv s)

/-- GADD with its completion (R125, R202). -/
def execGadd (s : State) : Host.Outcome State Fault Refusal := finish s (performField fadd s)

/-- GSUB with its completion (R126, R202). -/
def execGsub (s : State) : Host.Outcome State Fault Refusal := finish s (performField fsub s)

/-- GMUL with its completion (R127, R202). -/
def execGmul (s : State) : Host.Outcome State Fault Refusal := finish s (performField fmul s)

end Sys2Proof.Machine
end

