-- ==== Sys2Proof/Machine/PolyShare.lean ====
section
/-!
DEFINITION. The polynomial family: PEVAL, PSHARE, PSHAREBUF, with the coefficient repair (spec 42_poly_share.md R140 to R144, R146).
-/

namespace Sys2Proof.Machine

/-- Σ c_t * fpow(x, t), t counted from the given exponent (R140). -/
def polySum (x : Nat) : Nat → List Nat → Nat
  | _, [] => 0
  | t, a :: rest => a * fpow x t + polySum x (t + 1) rest

/-- evalPoly(c, k, x), k the length of c (R140). -/
def evalPoly (c : List Nat) (x : Nat) : Nat := mod257 (polySum x 0 c)

/-- The values v_1 … v_n (R141). -/
def shareValues (c : List Nat) (n : Nat) : List Nat := (List.range n).map fun i => evalPoly c (i + 1)

/-- One repair: the first (lowest-index) nonzero coefficient lowered by 1 (R141). -/
def repairOnce : List Nat → List Nat
  | [] => []
  | a :: rest => if a = 0 then a :: repairOnce rest else (a - 1) :: rest

/-- The loop of share, with at most fuel repairs, counting them from r (R141). -/
def shareLoop (fuel : Nat) (c : List Nat) (n r : Nat) : List Nat × List Nat × Nat :=
  match fuel with
  | 0 => (c, shareValues c n, r)
  | f + 1 =>
    if (shareValues c n).all isByte then (c, shareValues c n, r)
    else shareLoop f (repairOnce c) n (r + 1)

/-- share(c, k, n): the repaired coefficients, the values and the repair count (R141). Each repair lowers Σ c_t by 1, so
Σ c_t repairs are never exceeded (R146; notes/assumptions/12.md). -/
def share (c : List Nat) (n : Nat) : List Nat × List Nat × Nat := shareLoop c.sum c n 0

/-- COEF[j] <- c_j for j in [0, k) (R143). -/
def State.storeCoefs (s : State) (k : Nat) (c : List Nat) : State :=
  forUp k (fun j t => t.setCoef j (BitVec.ofNat 9 (c.getD j 0))) s

/-- YTAB[i−1] <- v_i for i in [1, n] (R143). -/
def State.storeValues (s : State) (n : Nat) (v : List Nat) : State :=
  forUp n (fun i t => t.setY i (BitVec.ofNat 9 (v.getD i 0))) s

/-- PEVAL (R142). -/
def performPeval (s : State) : Except EngineError State := do
  let k ← thresholdOperand s
  let x ← canonOperand s.arg0 Offset.arg0
  let c ← canonCoefOperand s k
  pure (s.setRes0 (evalPoly c x))

/-- PSHARE (R143). -/
def performPshare (s : State) : Except EngineError State := do
  let (k, n) ← shareOperand s
  let c ← byteCoefOperand s k
  let (c', v, r) := share c n
  pure (((((s.storeCoefs k c').storeValues n v).setRepairs r).flagRepairs r))

/-- DMEM[a .. a+k) as numbers: a pixel group (R144). -/
def State.groupAt (s : State) (a k : Nat) : List Nat := (List.range k).map fun t => (s.readByte (a + t)).toNat

/-- DMEM[a + i*stride] <- v_i for i in [0, m), in increasing i (R144, R166). -/
def State.storeStrided (s : State) (a stride m : Nat) (v : List Nat) : State :=
  forUp m (fun i t => t.writeByte (a + i * stride) (BitVec.ofNat 8 (v.getD i 0))) s

/-- One group of PSHAREBUF: read, share, write the repaired group back, write pixel j of each shadow; the pair holds the
state and the repairs so far (R144). -/
def sharePass (k n d p stride j : Nat) (x : State × Nat) : State × Nat :=
  let (c', v, r) := share (x.1.groupAt (p + j * k) k) n
  ((x.1.storeStrided (p + j * k) 1 k c').storeStrided (d + j) stride n v, x.2 + r)

/-- PSHAREBUF (R144). -/
def performPsharebuf (s : State) : Except EngineError State := do
  let (k, n) ← shareOperand s
  stridedOperand s n s.arg0.toNat s.arg3.toNat s.arg2.toNat Offset.arg0
  rangeOperand s s.arg1.toNat (s.arg2.toNat * k) Offset.arg1
  let (t, r) := forUp s.arg2.toNat (sharePass k n s.arg0.toNat s.arg1.toNat s.arg3.toNat) (s, 0)
  pure ((t.setRepairs r).flagRepairs r)

/-- PEVAL with its completion (R142, R202). -/
def execPeval (s : State) : Host.Outcome State Fault Refusal := finish s (performPeval s)

/-- PSHARE with its completion (R143, R202). -/
def execPshare (s : State) : Host.Outcome State Fault Refusal := finish s (performPshare s)

/-- PSHAREBUF with its completion (R144, R202). -/
def execPsharebuf (s : State) : Host.Outcome State Fault Refusal := finish s (performPsharebuf s)

end Sys2Proof.Machine
end

