-- ==== Sys2Proof/Machine/Prng.lean ====
section
/-!
DEFINITION. The PRNG and mask family: RSEED, RNEXT, RGEN, RMASK (spec 40_prng_mask.md R100 to R106).
-/

namespace Sys2Proof.Machine

/-- widen(s): the seed as 48 bits, zero- or sign-extended (R100). -/
def widenSeed (ext : SeedExt) (seed : Seed) : PrngState :=
  match ext with
  | .zero => seed.zeroExtend 48
  | .sign => seed.signExtend 48

/-- seedfn(s) (R100); the mask M48 is the width. -/
def seedState (ext : SeedExt) (seed : Seed) : PrngState := widenSeed ext seed ^^^ Config.prngMultiplier

/-- The state after one step: (S * A + 11) & M48 (R101). -/
def prngNext (x : PrngState) : PrngState := x * Config.prngMultiplier + 11#48

/-- The byte a step yields, from the new state: n = S' >> 17, b = (256 * n) >> 31 (R101). -/
def prngByte (x : PrngState) : Byte := BitVec.ofNat 8 ((256 * (x.toNat >>> 17)) >>> 31)

/-- One step of the generator in the register S (R101, R105). -/
def State.prngStep (s : State) : State := s.setPrng (prngNext s.prng)

/-- S <- seedfn(seed) (R100). -/
def State.reseed (s : State) (seed : Seed) : State := s.setPrng (seedState s.params.seedExt seed)

/-- RSEED (R103). -/
def performRseed (s : State) : Except EngineError State := do
  let seed ← seedOperand s.arg0 Offset.arg0
  pure (s.reseed seed)

/-- RNEXT (R104). -/
def performRnext (s : State) : Except EngineError State :=
  pure (s.prngStep.setRes0 (prngByte s.prngStep.prng).toNat)

/-- One pass of RGEN's loop: a step, and its byte to DMEM[d + i] (R105). -/
def genPass (d i : Nat) (s : State) : State :=
  s.prngStep.writeByte (d + i) (prngByte s.prngStep.prng)

/-- RGEN (R105). -/
def performRgen (s : State) : Except EngineError State := do
  let seed ← seedOperand s.arg1 Offset.arg1
  rangeOperand s s.arg0.toNat s.arg2.toNat Offset.arg0
  pure (forUp s.arg2.toNat (genPass s.arg0.toNat) (s.reseed seed))

/-- One pass of RMASK's loop: a step, and its byte XORed into DMEM[d + i] (R106). -/
def maskPass (d i : Nat) (s : State) : State :=
  s.prngStep.writeByte (d + i) (s.readByte (d + i) ^^^ prngByte s.prngStep.prng)

/-- RMASK (R106). -/
def performRmask (s : State) : Except EngineError State := do
  let seed ← seedOperand s.arg1 Offset.arg1
  rangeOperand s s.arg0.toNat s.arg2.toNat Offset.arg0
  pure (forUp s.arg2.toNat (maskPass s.arg0.toNat) (s.reseed seed))

/-- RSEED with its completion (R103, R202). -/
def execRseed (s : State) : Host.Outcome State Fault Refusal := finish s (performRseed s)

/-- RNEXT with its completion (R104, R202). -/
def execRnext (s : State) : Host.Outcome State Fault Refusal := finish s (performRnext s)

/-- RGEN with its completion (R105, R202). -/
def execRgen (s : State) : Host.Outcome State Fault Refusal := finish s (performRgen s)

/-- RMASK with its completion (R106, R202). -/
def execRmask (s : State) : Host.Outcome State Fault Refusal := finish s (performRmask s)

end Sys2Proof.Machine
end

