-- ==== Sys2Proof/Machine/Stego.lean ====
section
/-!
DEFINITION. The stego family: SHIDE, SREVEAL (spec 44_stego.md R180 to R183).
-/

namespace Sys2Proof.Machine

/-- Carrier byte c with its bit 0 replaced by bit 7−j of b (R180). -/
def hideBit (b c : Byte) (j : Nat) : Byte := (c &&& 0xFE#8) ||| ((b >>> (7 - j)) &&& 1#8)

/-- The byte revealed by the 8 carrier bytes from address a (R181). -/
def State.revealAt (s : State) (a : Nat) : Nat :=
  ((List.range 8).map fun j => (s.readByte (a + j) &&& 1#8).toNat <<< (7 - j)).sum

/-- One shadow byte of SHIDE: it is read before its 8 carrier writes (R182). -/
def hidePass (cb sb i : Nat) (s : State) : State :=
  forUp 8 (fun j t => t.writeByte (cb + 8 * i + j) (hideBit (s.readByte (sb + i)) (t.readByte (cb + 8 * i + j)) j)) s

/-- SHIDE (R182). -/
def performShide (s : State) : Except EngineError State := do
  rangeOperand s s.arg0.toNat (8 * s.arg2.toNat) Offset.arg0
  rangeOperand s s.arg1.toNat s.arg2.toNat Offset.arg1
  pure (forUp s.arg2.toNat (hidePass s.arg0.toNat s.arg1.toNat) s)

/-- One shadow byte of SREVEAL (R183). -/
def revealPass (db cb i : Nat) (s : State) : State :=
  s.writeByte (db + i) (BitVec.ofNat 8 (s.revealAt (cb + 8 * i)))

/-- SREVEAL (R183). -/
def performSreveal (s : State) : Except EngineError State := do
  rangeOperand s s.arg0.toNat s.arg2.toNat Offset.arg0
  rangeOperand s s.arg1.toNat (8 * s.arg2.toNat) Offset.arg1
  pure (forUp s.arg2.toNat (revealPass s.arg0.toNat s.arg1.toNat) s)

/-- SHIDE with its completion (R182, R202). -/
def execShide (s : State) : Host.Outcome State Fault Refusal := finish s (performShide s)

/-- SREVEAL with its completion (R183, R202). -/
def execSreveal (s : State) : Host.Outcome State Fault Refusal := finish s (performSreveal s)

end Sys2Proof.Machine
end

