-- ==== Sys2Proof/Machine/System.lean ====
section
/-!
DEFINITION. The system family: NOP (spec 49_system.md R200).
-/

namespace Sys2Proof.Machine

/-- NOP: it completes with no effect (R200). -/
def execNop (s : State) : Host.Outcome State Fault Refusal := finish s (.ok s)

end Sys2Proof.Machine
end

