-- ==== Sys2Proof/Machine/Vandermonde.lean ====
section
/-!
DEFINITION. The solver family: VSOLVE, VRECON (spec 43_vandermonde.md R160 to R166). MAT is a local value of the solver (R44).
-/

namespace Sys2Proof.Machine

/-- MAT[r][t]. -/
def matAt (m : List (List Nat)) (r t : Nat) : Nat := (m.getD r []).getD t 0

/-- MAT[r][t] <- v. -/
def matPut (m : List (List Nat)) (r t v : Nat) : List (List Nat) := m.set r ((m.getD r []).set t v)

/-- The k×(k+1) augmented matrix of points x and values y (R160). -/
def buildMat (x y : List Nat) (k : Nat) : List (List Nat) :=
  (List.range k).map fun j => ((List.range k).map fun i => fpow (x.getD j 0) i) ++ [y.getD j 0]

/-- Forward elimination, column c, row r, reduced against the row above it; the error is the pivot's locator (R161). -/
def eliminateRow (k c r : Nat) (m : List (List Nat)) : Except Nat (List (List Nat)) :=
  let p := matAt m (r - 1) c
  if p = 0 then .error ((r - 1) * 256 + c)
  else
    let α := fmul (matAt m r c) (inv p)
    .ok (forUp (k + 1 - c)
      (fun i a => matPut a r (c + i) (fsub (matAt a r (c + i)) (fmul (matAt a (r - 1) (c + i)) α))) m)

/-- Column c: the rows k−1 down to c+1 (R161). -/
def eliminateColumn (k c : Nat) (m : List (List Nat)) : Except Nat (List (List Nat)) :=
  forUpE (k - 1 - c) (fun i a => eliminateRow k c (k - 1 - i) a) m

/-- Forward elimination: the columns 0 to k−2 (R161). -/
def forwardEliminate (k : Nat) (m : List (List Nat)) : Except Nat (List (List Nat)) :=
  forUpE (k - 1) (fun c a => eliminateColumn k c a) m

/-- Back-substitution, row i: scale it, then clear column i above it (R162). -/
def backRow (k i : Nat) (m : List (List Nat)) : Except Nat (List (List Nat)) :=
  let p := matAt m i i
  if p = 0 then .error (i * 256 + i)
  else
    let scaled := forUp (k + 1) (fun t a => matPut a i t (fmul (matAt a i t) (inv p))) m
    .ok (forUp i
      (fun t a => matPut (matPut a t k (fsub (matAt a t k) (fmul (matAt a i k) (matAt a t i)))) t i 0) scaled)

/-- Back-substitution: the rows k−1 down to 1 (R162). -/
def backSubstitute (k : Nat) (m : List (List Nat)) : Except Nat (List (List Nat)) :=
  forUpE (k - 1) (fun d a => backRow k (k - 1 - d) a) m

/-- solve(x, y, k): the coefficients in column k, or the locator of a zero pivot (R163). -/
def solve (x y : List Nat) (k : Nat) : Except Nat (List Nat) := do
  let u ← forwardEliminate k (buildMat x y k)
  let d ← backSubstitute k u
  pure ((List.range k).map fun i => matAt d i k)

/-- solve with a zero pivot raised as ARITHMETIC_FAILURE (R161, R162, R220). -/
def solveOperand (x y : List Nat) (k : Nat) : Except EngineError (List Nat) :=
  match solve x y k with
  | .ok a => .ok a
  | .error at_ => .error ⟨.arithmeticFailure, BitVec.ofNat 32 at_⟩

/-- VSOLVE (R165). -/
def performVsolve (s : State) : Except EngineError State := do
  let k ← thresholdOperand s
  let x ← pointsOperand s k
  let y ← rightSideOperand s k
  let a ← solveOperand x y k
  pure (s.storeCoefs k a)

/-- One group of VRECON: read pixel p of each row's buffer, solve, store the low bytes; the pair holds the state and
whether a coefficient was 256 (R166). -/
def reconPass (x : List Nat) (k o b stride p : Nat) (z : State × Bool) : Except EngineError (State × Bool) := do
  let a ← solveOperand x ((List.range k).map fun j => (z.1.readByte (b + j * stride + p)).toNat) k
  pure (z.1.storeStrided (o + p * k) 1 k a, z.2 || a.any fun v => decide (v = 256))

/-- VRECON (R166). -/
def performVrecon (s : State) : Except EngineError State := do
  let k ← thresholdOperand s
  let x ← pointsOperand s k
  rangeOperand s s.arg0.toNat (s.arg2.toNat * k) Offset.arg0
  stridedOperand s k s.arg1.toNat s.arg3.toNat s.arg2.toNat Offset.arg1
  let z ← forUpE s.arg2.toNat (reconPass x k s.arg0.toNat s.arg1.toNat s.arg3.toNat) (s, false)
  pure (z.1.flagWrap z.2)

/-- VSOLVE with its completion (R165, R202). -/
def execVsolve (s : State) : Host.Outcome State Fault Refusal := finish s (performVsolve s)

/-- VRECON with its completion (R166, R202). -/
def execVrecon (s : State) : Host.Outcome State Fault Refusal := finish s (performVrecon s)

end Sys2Proof.Machine
end

