-- ==== Sys2Proof/Machine/Dispatch.lean ====
section
/-!
DEFINITION. Each command's completion step: one direct call of its meaning per constructor of Instr.
-/

namespace Sys2Proof.Machine

def exec (i : Instr) (s : State) : Host.Outcome State Fault Refusal :=
  match i with
  | .nop => Sys2Proof.Machine.execNop s
  | .rseed => Sys2Proof.Machine.execRseed s
  | .rnext => Sys2Proof.Machine.execRnext s
  | .rgen => Sys2Proof.Machine.execRgen s
  | .rmask => Sys2Proof.Machine.execRmask s
  | .gmod => Sys2Proof.Machine.execGmod s
  | .ginv => Sys2Proof.Machine.execGinv s
  | .gadd => Sys2Proof.Machine.execGadd s
  | .gsub => Sys2Proof.Machine.execGsub s
  | .gmul => Sys2Proof.Machine.execGmul s
  | .peval => Sys2Proof.Machine.execPeval s
  | .pshare => Sys2Proof.Machine.execPshare s
  | .psharebuf => Sys2Proof.Machine.execPsharebuf s
  | .vsolve => Sys2Proof.Machine.execVsolve s
  | .vrecon => Sys2Proof.Machine.execVrecon s
  | .shide => Sys2Proof.Machine.execShide s
  | .sreveal => Sys2Proof.Machine.execSreveal s

end Sys2Proof.Machine
end

