-- ==== Sys2Proof/Machine/Engine.lean ====
section
/-!
DEFINITION. The engine's one step, the completion step (spec 49_system.md R202): the accepted word is decoded and performed; a word that
is no command is an ILLEGAL_CMD error (R81).
-/

namespace Sys2Proof.Machine

/-- perform(decode(c)) with its completion (R81, R202). -/
def performWord (c : Word) (s : State) : Host.Outcome State Fault Refusal :=
  match decode c with
  | .ok i => exec i s
  | .error _ => .next (s.takeError ⟨.illegalCmd, c⟩)

/-- The engine's step; an idle engine has none, and nothing changes (R20, R202; notes/assumptions/8.md). -/
def engineStep (s : State) : Host.Outcome State Fault Refusal :=
  match s.phase with
  | .busy c => performWord c s
  | .idle => .next s

/-- What acceptance leaves when the word is offered to an idle engine without an error (R201). -/
def State.accepting (s : State) (c : Word) : State :=
  { s with phase := .busy c, status := { s.status with busy := true, done := false } }

/-- The command word of a table row: one 32-bit word, every bit above nbits 0 (R80). -/
def tableWord (nbits w : Nat) : Word := BitVec.ofNat 32 (w % 2 ^ nbits)

end Sys2Proof.Machine
end

