-- ==== Sys2Proof/Machine/Bus.lean ====
section
/-!
DEFINITION. The host interface: the address map, which accesses are legal, and what a bus read and a bus write do, in and
out of the BUSY window (spec 10_state.md R24 to R40, R48, R49; 20_memory.md R60 to R68; 70_reset_and_hazards.md R254 to R256).
-/

namespace Sys2Proof.Machine

/-- The control and status registers (R48). -/
inductive Reg where
  | id
  | ctrl
  | status
  | cmd
  | arg0
  | arg1
  | arg2
  | arg3
  | res0
  | cfg
  | prngLo
  | prngHi
  | repairs
  | errinfo
  | param
  | dmemsz
deriving DecidableEq, Repr

/-- The register at an offset of the register block; the other offsets hold none (R48, R37). -/
def regAt (o : Nat) : Option Reg :=
  match o with
  | 0x000 => some .id
  | 0x004 => some .ctrl
  | 0x008 => some .status
  | 0x00C => some .cmd
  | 0x010 => some .arg0
  | 0x014 => some .arg1
  | 0x018 => some .arg2
  | 0x01C => some .arg3
  | 0x020 => some .res0
  | 0x028 => some .cfg
  | 0x02C => some .prngLo
  | 0x030 => some .prngHi
  | 0x034 => some .repairs
  | 0x038 => some .errinfo
  | 0x03C => some .param
  | 0x040 => some .dmemsz
  | _ => none

/-- What a legal access reaches (R60). -/
inductive Target where
  | reg (r : Reg)
  | xtab (j : Nat)
  | ytab (j : Nat)
  | coef (j : Nat)
  | dmem (a : Nat)
deriving DecidableEq, Repr

/-- The target of an aligned 32-bit access at an offset below 0x1000 (R60, R37). -/
def wordTarget (o : Nat) : Option Target :=
  if o < 0x400 then (regAt o).map .reg
  else if o < 0x800 then some (.xtab ((o - 0x400) / 4))
  else if o < 0xC00 then some (.ytab ((o - 0x800) / 4))
  else some (.coef ((o - 0xC00) / 4))

/-- The target of a host access, none when the access is illegal (R60, R62, R63). -/
def accessTarget (p : Params) (w : Width) (off : Word) : Option Target :=
  let o := off.toNat
  if o < 0x1000 then
    if w = .w32 ∧ o % 4 = 0 then wordTarget o else none
  else if Config.dmemOff ≤ o ∧ o % w.bytes = 0 ∧ o - Config.dmemOff + w.bytes ≤ p.dmemSize then
    some (.dmem (o - Config.dmemOff))
  else none

/-- PARAM: K_MAX in bits 7:0, SEED_EXT in bit 8 (R35). -/
def paramWord (p : Params) : Word :=
  BitVec.ofNat 32 (p.kMax + if p.seedExt = .sign then 0x100 else 0)

/-- The value a register reads as when it is stable (R24 to R36, R48). -/
def State.regValue (s : State) (r : Reg) : Word :=
  match r with
  | .id => Config.idWord
  | .ctrl => (BitVec.ofBool s.ie).zeroExtend 32
  | .status => s.status.word
  | .cmd => 0#32
  | .arg0 => s.arg0
  | .arg1 => s.arg1
  | .arg2 => s.arg2
  | .arg3 => s.arg3
  | .res0 => s.res0
  | .cfg => (s.cfgN ++ s.cfgK).zeroExtend 32
  | .prngLo => s.prng.extractLsb' 0 32
  | .prngHi => (s.prng.extractLsb' 32 16).zeroExtend 32
  | .repairs => s.repairs
  | .errinfo => s.errinfo
  | .param => paramWord s.params
  | .dmemsz => BitVec.ofNat 32 s.params.dmemSize

/-- The registers whose host read in the BUSY window is unspecified (R256). -/
def Reg.unstable (r : Reg) : Bool :=
  match r with
  | .res0 => true
  | .prngLo => true
  | .prngHi => true
  | .repairs => true
  | .errinfo => true
  | _ => false

/-- A host read of a table entry: its value zero-extended, or in the BUSY window a free 9-bit value (R49, R256). -/
def State.readEntry (s : State) (v : Entry) : Word × State :=
  if s.status.busy then (s.drawEntry.1.zeroExtend 32, s.drawEntry.2) else (v.zeroExtend 32, s)

/-- n free bytes as a number, the draws counted (R256). -/
def State.drawBytes (s : State) (n : Nat) : Nat × State :=
  forUp n (fun i x => (x.1 + x.2.drawByte.1.toNat * 2 ^ (8 * i), x.2.drawByte.2)) (0, s)

/-- A host read of n DMEM bytes: MemRead, or in the BUSY window a free value per byte (R64, R256). -/
def State.readDmem (s : State) (a n : Nat) : Word × State :=
  if s.status.busy then (BitVec.ofNat 32 (s.drawBytes n).1, (s.drawBytes n).2)
  else (BitVec.ofNat 32 (s.memRead a n), s)

/-- A host read of a register (R48, R256). -/
def State.readReg (s : State) (r : Reg) : Word × State :=
  if s.status.busy && r.unstable then s.drawWord else (s.regValue r, s)

/-- A host read: the value returned and the state after it (R62 to R68, R256). -/
def State.busRead (s : State) (w : Width) (off : Word) : Word × State :=
  match accessTarget s.params w off with
  | none => (0#32, s.flagAccess)
  | some (.reg r) => s.readReg r
  | some (.xtab j) => ((s.xEntry j).zeroExtend 32, s)
  | some (.ytab j) => s.readEntry (s.yEntry j)
  | some (.coef j) => s.readEntry (s.coefEntry j)
  | some (.dmem a) => s.readDmem a w.bytes

/-- A host write to CTRL: a soft reset if SRST is written 1, which wins over IE (R25, R251). -/
def State.writeCtrl (s : State) (v : Word) : State :=
  if v.getLsbD 1 then s.softReset else { s with ie := v.getLsbD 0 }

/-- A write of operands or data: performed, or ignored with HZD in the BUSY window (R255). -/
def State.unlessBusy (s : State) (t : State) : State := if s.status.busy then s.flagHazard else t

/-- A host write to a register (R24 to R36, R48, R255). -/
def State.writeReg (s : State) (r : Reg) (v : Word) : State :=
  match r with
  | .id => s
  | .ctrl => s.writeCtrl v
  | .status => s.writeStatus v
  | .cmd => s.offer v
  | .arg0 => s.unlessBusy { s with arg0 := v }
  | .arg1 => s.unlessBusy { s with arg1 := v }
  | .arg2 => s.unlessBusy { s with arg2 := v }
  | .arg3 => s.unlessBusy { s with arg3 := v }
  | .res0 => s
  | .cfg => s.unlessBusy { s with cfgK := v.extractLsb' 0 8, cfgN := v.extractLsb' 8 8 }
  | .prngLo => s.unlessBusy (s.setPrng (s.prng.extractLsb' 32 16 ++ v))
  | .prngHi => s.unlessBusy (s.setPrng (v.extractLsb' 0 16 ++ s.prng.extractLsb' 0 32))
  | .repairs => s
  | .errinfo => s
  | .param => s
  | .dmemsz => s

/-- A host write (R62 to R65, R255). -/
def State.busWrite (s : State) (w : Width) (off : Word) (v : Word) : State :=
  match accessTarget s.params w off with
  | none => s.flagAccess
  | some (.reg r) => s.writeReg r v
  | some (.xtab j) => s.unlessBusy (s.setX j (v.extractLsb' 0 8))
  | some (.ytab j) => s.unlessBusy (s.setY j (v.extractLsb' 0 9))
  | some (.coef j) => s.unlessBusy (s.setCoef j (v.extractLsb' 0 9))
  | some (.dmem a) => s.unlessBusy (s.memWrite a w.bytes v)

end Sys2Proof.Machine
end

