-- ==== Sys2Proof/Machine/HostScript.lean ====
section
/-!
DEFINITION. The host's step: one statement of the host script (spec 30_encoding.md R87).
-/

namespace Sys2Proof.Machine

/-- The value a script variable holds: the latest read into it (R87). -/
def lookupVar : List (Nat × Word) → Nat → Option Word
  | [], _ => none
  | (y, v) :: rest, x => if x = y then some v else lookupVar rest x

/-- A value of a statement: a number, or what its variable holds; the refusal names a variable nothing has read (R87). -/
def State.scriptValue (s : State) (v : Value) : Except Refusal Word :=
  match v with
  | .num n => .ok n
  | .var x =>
    match lookupVar s.host.vars x with
    | some n => .ok n
    | none => .error (.unboundVariable x)

/-- On to the next statement. -/
def State.advance (s : State) : State := { s with host := { s.host with position := s.host.position + 1 } }

/-- A value read into a script variable. -/
def State.bindVar (s : State) (x : Nat) (v : Word) : State :=
  { s with host := { s.host with vars := (x, v) :: s.host.vars } }

/-- On to a label of the script (R87). -/
def State.goTo (s : State) (l : Nat) : Host.Outcome State Fault Refusal :=
  match findLabel s.host.script l with
  | some at_ => .next { s with host := { s.host with position := at_ } }
  | none => .refused (.missingLabel l)

/-- One statement of the host (R87). -/
def performStmt (st : Stmt) (s : State) : Host.Outcome State Fault Refusal :=
  match st with
  | .write w off v =>
    match s.scriptValue v with
    | .ok n => .next (s.busWrite w off n).advance
    | .error r => .refused r
  | .read w off x => .next (((s.busRead w off).2.bindVar x (s.busRead w off).1).advance)
  | .label _ => .next s.advance
  | .bit x b l =>
    match s.scriptValue (.var x) with
    | .ok n => if n.getLsbD b then s.goTo l else .next s.advance
    | .error r => .refused r
  | .expect x v =>
    match s.scriptValue (.var x), s.scriptValue v with
    | .ok m, .ok n => if m = n then .next s.advance else .fault .expectFailed
    | .error r, _ => .refused r
    | _, .error r => .refused r
  | .jump l => s.goTo l
  | .stop => .next s

/-- The host's next statement; none at the end of the script, where the host stops (R87). -/
def State.hostStatement (s : State) : Option Stmt := s.host.script[s.host.position]?

/-- The host's step. A host that has performed its last statement does nothing more (R87, R262). -/
def hostStep (s : State) : Host.Outcome State Fault Refusal :=
  match s.hostStatement with
  | some st => performStmt st s
  | none => .next s

/-- A host script loaded from outside the machine, at its first statement (notes/assumptions/2.md). -/
def State.withScript (s : State) (p : List Stmt) : State :=
  { s with host := { script := p, position := 0, vars := [] } }

end Sys2Proof.Machine
end

