-- ==== Sys2Proof/Machine/Step.lean ====
section
/-!
DEFINITION. One step of the whole machine: one turn of one agent (spec 10_state.md R20; 20_memory.md R67; 70_reset_and_hazards.md R260).
-/

namespace Sys2Proof.Machine

/-- One step: the agent the schedule names; after its end the engine while a command is BUSY, else the host
(notes/assumptions/7.md). -/
def step (s : State) : Host.Outcome State Fault Refusal :=
  match s.schedule with
  | .host :: rest => hostStep { s with schedule := rest }
  | .engine :: rest => engineStep { s with schedule := rest }
  | .powerOn :: rest => .next (State.powerOnReset { s with schedule := rest })
  | [] =>
    match s.phase with
    | .busy _ => engineStep s
    | .idle => hostStep s

/-- The command word accepted by the engine, with the engine's completion step next: what a host's CMD write leaves, as
the GFU fetches no instruction (R23, R71, R201; notes/assumptions/2.md). -/
def State.withFetchWord (s : State) (nbits w : Nat) : State :=
  State.accepting { s with schedule := [] } (tableWord nbits w)

end Sys2Proof.Machine
end

