-- ==== Sys2Proof/Safety.lean ====
section
/-!
DEFINITION. What the statements call a coherent state, a finished run and a clean run (spec 10_state.md R26, R45; 20_memory.md R61;
60_exceptions.md R220; 70_reset_and_hazards.md R262).
-/

namespace Sys2Proof.Machine

/-- The engine has an accepted command (R45). -/
def State.commandPending (s : State) : Bool :=
  match s.phase with
  | .busy _ => true
  | .idle => false

/-- STATUS agrees with the phase and with itself (R26, R45, R201, R220, R225). -/
structure StatusCoherent (s : State) : Prop where
  /-- BUSY = 1 exactly when the phase is BUSY(c) (R45). -/
  busy_iff_pending : s.status.busy = s.commandPending
  /-- A command is accepted only while ERR = 0, and acceptance clears DONE (R201). -/
  pending_clean : s.commandPending = true → s.status.err = false ∧ s.status.done = false
  /-- Without an error, ERRCODE is NONE and ERRINFO is 0 (R220, R27). -/
  no_error_zero : s.status.err = false → s.status.errcode = 0#8 ∧ s.errinfo = 0#32
  /-- With an error, ERRCODE is one of 0x01 to 0x05 (R220). -/
  error_code : s.status.err = true → 1 ≤ s.status.errcode.toNat ∧ s.status.errcode.toNat ≤ 5

/-- The tables and DMEM are in canonical form and list no location that does not exist (R49, R61). -/
structure StorageCoherent (s : State) : Prop where
  xtab_wf : Memory.wf s.xtab
  ytab_wf : Memory.wf s.ytab
  coef_wf : Memory.wf s.coef
  dmem_wf : Memory.wf s.dmem
  xtab_below : Memory.below s.xtab Config.tableEntries
  ytab_below : Memory.below s.ytab Config.tableEntries
  coef_below : Memory.below s.coef Config.tableEntries
  dmem_below : Memory.below s.dmem s.params.dmemSize

/-- The host has performed its last statement: it stands at END, or past the script's last line (R87, R262). -/
def State.hostFinished (s : State) : Bool :=
  match s.hostStatement with
  | none => true
  | some .stop => true
  | some _ => false

/-- The end of a run: the host has performed its last statement and the phase is IDLE (R262). -/
def State.runFinished (s : State) : Bool := s.hostFinished && !s.commandPending

/-- No command was lost, no write ignored and no access illegal: DROP, HZD and ACCERR are clear (R254, R255, R63). -/
def State.interfaceClean (s : State) : Bool := !s.status.drop && !s.status.hzd && !s.status.accerr

end Sys2Proof.Machine
end

