-- ==== Sys2Proof/WellFormed.lean ====
section
/-!
DEFINITION. The static checks of what is written for the machine: a command (no operand in its word, so always well
formed), a command word (R80, R81), a host script (R87) and the parameters (Params.legal, R7).
-/

namespace Sys2Proof

/-- A command is well formed: it has no operand, so its constructor is all there is (R84). -/
def Instr.wellFormed (_ : Instr) : Bool := true

/-- A command word's reserved field is 0 (R80). -/
def reservedZero (c : Word) : Bool := rsvField c == 0#24

/-- A command word's opcode is an entry of the opcode map (R82). -/
def opcodeAssigned (c : Word) : Bool := (opMap (opField c)).isSome

/-- A legal command word (R82, R83). -/
def legalWord (c : Word) : Bool := reservedZero c && opcodeAssigned c

/-- The labels a script declares. -/
def declaredLabels (p : List Stmt) : List Nat :=
  p.filterMap fun st => match st with
    | .label l => some l
    | _ => none

/-- No label stands twice: a label is one position (R87). -/
def labelsUnique (p : List Stmt) : Bool := decide (declaredLabels p).Nodup

/-- Every label a statement goes to is declared (R87). -/
def targetsDeclared (p : List Stmt) : Bool :=
  p.all fun st => match st with
    | .bit _ _ l => (declaredLabels p).contains l
    | .jump l => (declaredLabels p).contains l
    | _ => true

/-- BIT names one of the 32 bits of a variable (R87). -/
def bitsInRange (p : List Stmt) : Bool :=
  p.all fun st => match st with
    | .bit _ b _ => decide (b < 32)
    | _ => true

/-- A value is a number or a variable among those read (R87). -/
def valueRead (names : List Nat) (v : Value) : Bool :=
  match v with
  | .num _ => true
  | .var x => names.contains x

/-- Every variable used is read by a statement further up (R87: "a script variable read earlier"). -/
def variablesRead : List Nat → List Stmt → Bool
  | _, [] => true
  | names, .write _ _ v :: rest => valueRead names v && variablesRead names rest
  | names, .read _ _ x :: rest => variablesRead (x :: names) rest
  | names, .label _ :: rest => variablesRead names rest
  | names, .bit x _ _ :: rest => names.contains x && variablesRead names rest
  | names, .expect x v :: rest => names.contains x && valueRead names v && variablesRead names rest
  | names, .jump _ :: rest => variablesRead names rest
  | names, .stop :: rest => variablesRead names rest

/-- A well-formed host script (R87). -/
def scriptWellFormed (p : List Stmt) : Bool :=
  labelsUnique p && targetsDeclared p && bitsInRange p && variablesRead [] p

end Sys2Proof
end

