-- ==== Sys2Proof/Certificates/Slice0/Obligations.lean ====
section
/-!
DEFINITION. The statements for the provers, and the few functions they are written with, taken from the spec's own formulas.
-/

namespace Sys2Proof.Statements

open Sys2Proof.Machine

/-! ### Words of the statements -/

/-- The code of each kind of error, as the rule's table lists it (R220). -/
def errorCode (kind : ErrorKind) : Byte :=
  match kind with
  | .illegalCmd => 0x01#8
  | .invalidArgument => 0x02#8
  | .malformedShadow => 0x03#8
  | .addressError => 0x04#8
  | .arithmeticFailure => 0x05#8

/-- The state with the report of an error and nothing else changed: the error entry written out (R222, R223). -/
abbrev reported (s : State) (kind : ErrorKind) (info : Word) : State :=
  { s with
    phase := .idle
    status := { s.status with busy := false, done := true, err := true, errcode := errorCode kind }
    errinfo := info }

/-- A command ends with an error of the kind, ERRINFO the locator (R222). -/
abbrev EndsWith (i : Instr) (s : State) (kind : ErrorKind) (info : Word) : Prop :=
  exec i s = .next (reported s kind info)

/-- A command completes, with what it wrote in t and the completion's own phase, BUSY and DONE on top (R202). -/
abbrev CompletesAs (i : Instr) (s t : State) : Prop :=
  exec i s = .next { t with phase := .idle, status := { t.status with busy := false, done := true } }

/-- The opcode map as the rule's table lists it (R82). -/
def opmap : List (Word × Instr) :=
  [(0x00000000#32, .nop), (0x00000010#32, .rseed), (0x00000011#32, .rnext), (0x00000012#32, .rgen),
   (0x00000013#32, .rmask), (0x00000020#32, .gmod), (0x00000021#32, .ginv), (0x00000022#32, .gadd),
   (0x00000023#32, .gsub), (0x00000024#32, .gmul), (0x00000030#32, .peval), (0x00000031#32, .pshare),
   (0x00000032#32, .psharebuf), (0x00000040#32, .vsolve), (0x00000041#32, .vrecon), (0x00000050#32, .shide),
   (0x00000051#32, .sreveal)]

/-- seedfn(s) in numbers (R100): s, or s + 2^48 − 2^16 when SEED_EXT = SIGN and s[15] = 1, XOR A. -/
def seedFn (p : Params) (seed : Nat) : PrngState :=
  BitVec.ofNat 48 ((if p.seedExt = .zero ∨ seed < 0x8000 then seed else seed + (2 ^ 48 - 2 ^ 16)) ^^^ 25214903917)

/-- The new state of one step of the generator, in numbers (R101). -/
def nextState (x : PrngState) : PrngState := BitVec.ofNat 48 ((x.toNat * 25214903917 + 11) % 2 ^ 48)

/-- S_i: the state after i steps from seedfn(seed) (R102). -/
def maskState (p : Params) (seed : Nat) : Nat → PrngState
  | 0 => seedFn p seed
  | i + 1 => nextState (maskState p seed i)

/-- m_i: the mask byte, bits 47:40 of the state after step i+1 (R102). -/
def maskByte (p : Params) (seed i : Nat) : Byte := (maskState p seed (i + 1)).extractLsb' 40 8

/-- The range [base, base+len) lies in DMEM, or is empty (R66). -/
def InDmem (s : State) (base len : Nat) : Prop := len = 0 ∨ base + len ≤ s.params.dmemSize

/-- Two ranges share no address. -/
def Apart (a m b n : Nat) : Prop := ∀ i j, i < m → j < n → a + i ≠ b + j

/-- The polynomial with the given coefficients at x, mod 257 (R140). -/
def poly (c : List Nat) (x : Nat) : Nat := (∑ t ∈ Finset.range c.length, c.getD t 0 * x ^ t) % 257

/-- COEF[0..k) as numbers. -/
def coefs (s : State) (k : Nat) : List Nat := (List.range k).map fun j => (s.coefEntry j).toNat

/-- XTAB[0..k) as numbers. -/
def points (s : State) (k : Nat) : List Nat := (List.range k).map fun j => (s.xEntry j).toNat

/-- DMEM[a .. a+k) as numbers. -/
def bytesAt (s : State) (a k : Nat) : List Nat := (List.range k).map fun j => (s.readByte (a + j)).toNat

/-- k bytes from address a of a memory given by its reads, as numbers. -/
def groupIn (m : Nat → Byte) (a k : Nat) : List Nat := (List.range k).map fun i => (m (a + i)).toNat

/-- CFG.K is legal for the evaluator and the solver (R31). -/
abbrev LegalK (s : State) : Prop := 2 ≤ s.cfgK.toNat ∧ s.cfgK.toNat ≤ s.params.kMax

/-- CFG.K and CFG.N are legal for sharing (R31). -/
abbrev LegalKN (s : State) : Prop := LegalK s ∧ s.cfgK.toNat ≤ s.cfgN.toNat

/-- XTAB[j] fails the point check: it is zero or repeats an earlier entry (R164). -/
def BadPoint (s : State) (j : Nat) : Prop := s.xEntry j = 0#8 ∨ ∃ i, i < j ∧ s.xEntry i = s.xEntry j

/-- XTAB[0..k) passes the point check (R164). -/
def GoodPoints (s : State) (k : Nat) : Prop := ∀ j, j < k → ¬ BadPoint s j

/-- The address is one of DMEM that the command may write (the DMEM entries of R47's table). -/
def WritesDmem (i : Instr) (s : State) (a : Nat) : Prop :=
  match i with
  | .rgen => s.arg0.toNat ≤ a ∧ a < s.arg0.toNat + s.arg2.toNat
  | .rmask => s.arg0.toNat ≤ a ∧ a < s.arg0.toNat + s.arg2.toNat
  | .psharebuf =>
    (s.arg1.toNat ≤ a ∧ a < s.arg1.toNat + s.arg2.toNat * s.cfgK.toNat) ∨
      ∃ m, m < s.cfgN.toNat ∧ s.arg0.toNat + m * s.arg3.toNat ≤ a ∧
        a < s.arg0.toNat + m * s.arg3.toNat + s.arg2.toNat
  | .vrecon => s.arg0.toNat ≤ a ∧ a < s.arg0.toNat + s.arg2.toNat * s.cfgK.toNat
  | .shide => s.arg0.toNat ≤ a ∧ a < s.arg0.toNat + 8 * s.arg2.toNat
  | .sreveal => s.arg0.toNat ≤ a ∧ a < s.arg0.toNat + s.arg2.toNat
  | _ => False

/-- The number of COEF entries the command may write (R47). -/
def coefsWritten (i : Instr) (s : State) : Nat :=
  match i with
  | .pshare => s.cfgK.toNat
  | .vsolve => s.cfgK.toNat
  | _ => 0

/-- The number of YTAB entries the command may write (R47). -/
def valuesWritten (i : Instr) (s : State) : Nat :=
  match i with
  | .pshare => s.cfgN.toNat
  | _ => 0

/-- The offsets of the register block that hold a register (R48, R37). -/
def registerOffsets : List Nat :=
  [0x000, 0x004, 0x008, 0x00C, 0x010, 0x014, 0x018, 0x01C, 0x020, 0x028, 0x02C, 0x030, 0x034, 0x038, 0x03C, 0x040]

/-- The legal host accesses (R62, R63, R37). -/
def LegalAccess (p : Params) (w : Width) (off : Word) : Prop :=
  (off.toNat < 0x1000 ∧ w = .w32 ∧ off.toNat % 4 = 0 ∧ (off.toNat < 0x400 → off.toNat ∈ registerOffsets)) ∨
    (0x100000 ≤ off.toNat ∧ off.toNat % w.bytes = 0 ∧ off.toNat - 0x100000 + w.bytes ≤ p.dmemSize)

/-- The flags with BUSY set and DONE cleared: acceptance (R201). -/
abbrev accepted (t : Status) : Status := { t with busy := true, done := false }

end Sys2Proof.Statements

open Sys2Proof Sys2Proof.Machine Sys2Proof.Statements

/-! ### Encoding and decoding -/

/-- Decode and encode agree: every well-formed command's word decodes to it, and a word that decodes to a command is that
command's word (R80 to R83). -/
def Obligations.DecodeAndEncodeAgree : Prop :=
  (∀ i : Instr, Instr.wellFormed i = true → decode (encode i) = .ok i) ∧
    ∀ (c : Word) (i : Instr), decode c = .ok i → encode i = c

/-- The decoder selects an entry of the opcode map exactly for the 17 listed words (R82). -/
def Obligations.DecoderAcceptsExactlyTheListedWords : Prop :=
  ∀ (c : Word) (i : Instr), decode c = .ok i ↔ (c, i) ∈ opmap

/-- Every other word, once accepted, ends with ILLEGAL_CMD and ERRINFO the word, and nothing else changes but the
completion's own phase, BUSY and DONE (R83, R202, R220, R222): with the engine's turn on the schedule, and after the
schedule's end. That the engine acts there while BUSY is the model's choice, notes/assumptions/7.md. -/
def Obligations.EveryOtherWordEndsWithIllegalCmd : Prop :=
  ∀ (s : State) (c : Word), (∀ i, (c, i) ∉ opmap) → s.phase = .busy c →
    (s.schedule = [] → step s = .next (reported s .illegalCmd c)) ∧
      ∀ rest, s.schedule = .engine :: rest → step s = .next (reported { s with schedule := rest } .illegalCmd c)

/-- A few words written out from the table decode to their commands, and a reserved word to none (R82). -/
def Obligations.WrittenOutWordsDecode : Prop :=
  decode 0x00000000#32 = .ok .nop ∧ decode 0x00000013#32 = .ok .rmask ∧ decode 0x00000021#32 = .ok .ginv ∧
    decode 0x00000032#32 = .ok .psharebuf ∧ decode 0x00000041#32 = .ok .vrecon ∧
    decode 0x00000050#32 = .ok .shide ∧ decode 0x00000014#32 = .error .unassignedOpcode ∧
    decode 0x00000121#32 = .error .reservedBits

/-! ### Steps -/

/-- A step of the engine runs the decoded command: when the accepted word decodes to i, step is exec of i, on the state
itself after the schedule's end, or on the state with the engine's turn taken off the schedule (R81, R202). The schedule
(whose turn it is, and that the engine acts after its end while BUSY) is the model's choice, notes/assumptions/7.md. -/
def Obligations.StepRunsTheDecodedCommand : Prop :=
  ∀ (s : State) (c : Word) (i : Instr), s.phase = .busy c → decode c = .ok i →
    (s.schedule = [] → step s = exec i s) ∧
      ∀ rest, s.schedule = .engine :: rest → step s = exec i { s with schedule := rest }

/-- A step of the host performs its next statement, and of a host at the end of its script nothing. W, WH and WB perform the
bus write of the number or of the variable's value; R, RH and RB perform the bus read and bind its value to the variable,
which then reads as it, and no other; a label does nothing; each goes on to the next statement (R87). The schedule (whose
turn it is) is the model's choice, notes/assumptions/7.md; that the step of a host at the end of its script changes nothing
is the model's inference, notes/assumptions/8.md; that a write of a variable nothing has read is refused is the model's
choice, notes/assumptions/11.md, and that the latest read of a variable counts, notes/assumptions/21.md. -/
def Obligations.StepRunsTheHostStatement : Prop :=
  (∀ (s : State),
    (s.schedule = [] → s.phase = .idle →
      (∀ st, s.hostStatement = some st → step s = performStmt st s) ∧ (s.hostStatement = none → step s = .next s)) ∧
      ∀ rest, s.schedule = .host :: rest →
        (∀ st, s.hostStatement = some st → step s = performStmt st { s with schedule := rest }) ∧
          (s.hostStatement = none → step s = .next { s with schedule := rest })) ∧
  ∀ (s : State) (w : Width) (off : Word),
    (∀ n, performStmt (.write w off (.num n)) s =
      .next { s.busWrite w off n with host := { s.host with position := s.host.position + 1 } }) ∧
    (∀ y n, lookupVar s.host.vars y = some n →
      performStmt (.write w off (.var y)) s =
        .next { s.busWrite w off n with host := { s.host with position := s.host.position + 1 } }) ∧
    (∀ y, lookupVar s.host.vars y = none → performStmt (.write w off (.var y)) s = .refused (.unboundVariable y)) ∧
    (∀ x, ∃ vars,
      performStmt (.read w off x) s =
        .next { (s.busRead w off).2 with
          host := { s.host with position := s.host.position + 1, vars := vars } } ∧
      lookupVar vars x = some (s.busRead w off).1 ∧ ∀ y, y ≠ x → lookupVar vars y = lookupVar s.host.vars y) ∧
    ∀ l, performStmt (.label l) s = .next { s with host := { s.host with position := s.host.position + 1 } }

/-- Host control flow: BIT goes to its label when the bit is 1 and on otherwise, J goes to its label, EXPECT goes on when
the variable holds the value, a number or another variable's; END stays (R87). That a failing EXPECT stops the run is the
model's choice, notes/assumptions/10.md, as are the refusals of a script that is none, notes/assumptions/11.md. That a step at
END answers the same state is the model's inference, notes/assumptions/8.md, and that a bit from 32 up is 0,
notes/assumptions/19.md. -/
def Obligations.HostControlFlow : Prop :=
  ∀ s : State,
    (∀ x b l n, lookupVar s.host.vars x = some n →
      (∀ at_, n.getLsbD b = true → findLabel s.host.script l = some at_ →
        performStmt (.bit x b l) s = .next { s with host := { s.host with position := at_ } }) ∧
      (n.getLsbD b = true → findLabel s.host.script l = none →
        performStmt (.bit x b l) s = .refused (.missingLabel l)) ∧
      (n.getLsbD b = false →
        performStmt (.bit x b l) s = .next { s with host := { s.host with position := s.host.position + 1 } })) ∧
    (∀ l at_, findLabel s.host.script l = some at_ →
      performStmt (.jump l) s = .next { s with host := { s.host with position := at_ } }) ∧
    (∀ l, findLabel s.host.script l = none → performStmt (.jump l) s = .refused (.missingLabel l)) ∧
    (∀ x n, lookupVar s.host.vars x = some n → ∀ (val : Value) (v : Word),
      (val = .num v ∨ ∃ y, val = .var y ∧ lookupVar s.host.vars y = some v) →
        (n = v →
          performStmt (.expect x val) s =
            .next { s with host := { s.host with position := s.host.position + 1 } }) ∧
        (n ≠ v → performStmt (.expect x val) s = .fault .expectFailed)) ∧
    (∀ x n y, lookupVar s.host.vars x = some n → lookupVar s.host.vars y = none →
      performStmt (.expect x (.var y)) s = .refused (.unboundVariable y)) ∧
    (∀ x b l val, lookupVar s.host.vars x = none →
      performStmt (.bit x b l) s = .refused (.unboundVariable x) ∧
        performStmt (.expect x val) s = .refused (.unboundVariable x)) ∧
    performStmt .stop s = .next s

/-- Every accepted command, legal or not, has its one completion step: the engine's step answers a next state with the
phase IDLE, BUSY clear and DONE set, never a fault or a refusal (R202). That the engine acts after the schedule's end while
BUSY is the model's choice, notes/assumptions/7.md. -/
def Obligations.EveryAcceptedCommandCompletes : Prop :=
  ∀ (s : State) (c : Word), s.phase = .busy c → (s.schedule = [] ∨ ∃ rest, s.schedule = .engine :: rest) →
    ∃ t, step s = .next t ∧ t.phase = .idle ∧ t.status.busy = false ∧ t.status.done = true

/-- A CMD write is accepted by an idle engine without an error, and otherwise sets DROP and changes nothing else; the
word is not decoded (R201). -/
def Obligations.CmdWriteIsAcceptedOrDropped : Prop :=
  ∀ (s : State) (w : Word),
    ((s.phase ≠ .idle ∨ s.status.err = true) →
      s.busWrite .w32 0x00C#32 w = { s with status := { s.status with drop := true } }) ∧
    (s.phase = .idle → s.status.err = false →
      s.busWrite .w32 0x00C#32 w =
        { s with phase := .busy w, status := accepted s.status })

/-- A command that raises an error changes nothing but the error report and the completion's own BUSY, DONE and phase (R223);
the report's code is the one R220 gives the kind, 0x02 to 0x05 for a command, and ERRINFO is the locator; and the error
entry of every kind is that report (R220, R222). -/
def Obligations.ErrorsChangeOnlyTheReport : Prop :=
  (∀ (i : Instr) (s t : State), exec i s = .next t → s.status.err = false → t.status.err = true →
    ∃ kind info, t = reported s kind info ∧ 2 ≤ t.status.errcode.toNat ∧ t.status.errcode.toNat ≤ 5) ∧
  ∀ (s : State) (kind : ErrorKind) (info : Word), s.takeError ⟨kind, info⟩ = reported s kind info

/-- No command, whether it ends with an error or not, changes CTRL, ARG0 to ARG3, CFG, XTAB, the flags DROP, HZD and
ACCERR, or anything of the host or the parameters (R29, R38, R47). -/
def Obligations.CommandsLeaveTheHostsStateAlone : Prop :=
  ∀ (i : Instr) (s t : State), exec i s = .next t →
    t.ie = s.ie ∧ t.arg0 = s.arg0 ∧ t.arg1 = s.arg1 ∧ t.arg2 = s.arg2 ∧ t.arg3 = s.arg3 ∧ t.cfgK = s.cfgK ∧
      t.cfgN = s.cfgN ∧ t.xtab = s.xtab ∧ t.status.drop = s.status.drop ∧ t.status.hzd = s.status.hzd ∧
      t.status.accerr = s.status.accerr ∧ t.params = s.params ∧ t.powerOns = s.powerOns ∧ t.draws = s.draws ∧
      t.host = s.host ∧ t.schedule = s.schedule

/-- The write set of each command that completes without error: everything outside it is unchanged, and BUSY and DONE are
written (R47). -/
def Obligations.CommandsWriteOnlyTheirWriteSet : Prop :=
  ∀ (i : Instr) (s t : State), exec i s = .next t → s.status.err = false → t.status.err = false →
    (i ∉ [Instr.rseed, .rnext, .rgen, .rmask] → t.prng = s.prng) ∧
    (i ∉ [Instr.rnext, .gmod, .ginv, .gadd, .gsub, .gmul, .peval] → t.res0 = s.res0) ∧
    (i ∉ [Instr.pshare, .psharebuf] → t.repairs = s.repairs ∧ t.status.rpr = s.status.rpr) ∧
    (i ≠ .vrecon → t.status.wrap = s.status.wrap) ∧
    (∀ j, coefsWritten i s ≤ j → t.coefEntry j = s.coefEntry j) ∧
    (∀ j, valuesWritten i s ≤ j → t.yEntry j = s.yEntry j) ∧
    (∀ a, ¬ WritesDmem i s a → t.readByte a = s.readByte a) ∧
    t.xtab = s.xtab ∧ t.errinfo = s.errinfo ∧ t.status.errcode = s.status.errcode ∧
    t.phase = .idle ∧ t.status.busy = false ∧ t.status.done = true

/-! ### The system command -/

/-- NOP completes with no effect but DONE; its word is accepted, and dropped, as every command's (R200). -/
def Obligations.NopOnlyCompletes : Prop :=
  decode 0x00000000#32 = .ok .nop ∧
    (∀ s : State, exec .nop s =
      .next { s with phase := .idle, status := { s.status with busy := false, done := true } }) ∧
    (∀ s : State, s.phase = .idle → s.status.err = false →
      s.busWrite .w32 0x00C#32 0#32 = { s with phase := .busy 0#32, status := accepted s.status }) ∧
    ∀ s : State, (s.phase ≠ .idle ∨ s.status.err = true) →
      s.busWrite .w32 0x00C#32 0#32 = { s with status := { s.status with drop := true } }

/-! ### PRNG and mask -/

/-- RSEED: nonzero bits 31:16 of ARG0 are an error; otherwise S is seedfn(ARG0[15:0]) and nothing else changes (R103, R100). -/
def Obligations.RseedLoadsTheSeedState : Prop :=
  decode 0x00000010#32 = .ok .rseed ∧
    ∀ s : State,
      (0x10000 ≤ s.arg0.toNat → EndsWith .rseed s .invalidArgument 0x010#32) ∧
      (s.arg0.toNat < 0x10000 → CompletesAs .rseed s { s with prng := seedFn s.params s.arg0.toNat })

/-- RNEXT: S steps to (S·A + 11) mod 2^48 and RES0 is (256·(S' >> 17)) >> 31 (R104, R101). -/
def Obligations.RnextStepsTheGenerator : Prop :=
  decode 0x00000011#32 = .ok .rnext ∧
    ∀ s : State, CompletesAs .rnext s
      { s with
        prng := nextState s.prng
        res0 := BitVec.ofNat 32 ((256 * ((nextState s.prng).toNat / 2 ^ 17)) / 2 ^ 31) }

/-- The byte a step yields is the top byte of the new state (R102). -/
def Obligations.StepByteIsTheTopByte : Prop :=
  ∀ x : PrngState,
    prngByte x = x.extractLsb' 40 8 ∧ (256 * (x.toNat / 2 ^ 17)) / 2 ^ 31 = x.toNat / 2 ^ 40

/-- RGEN: the seed check, the range check, then mask(s, len) in DMEM[ARG0 .. ARG0+ARG2), S after the last byte, and nothing
else changed (R105). -/
def Obligations.RgenWritesTheMask : Prop :=
  decode 0x00000012#32 = .ok .rgen ∧
    ∀ s : State,
      (0x10000 ≤ s.arg1.toNat → EndsWith .rgen s .invalidArgument 0x014#32) ∧
      (s.arg1.toNat < 0x10000 → ¬ InDmem s s.arg0.toNat s.arg2.toNat → EndsWith .rgen s .addressError 0x010#32) ∧
      (s.arg1.toNat < 0x10000 → InDmem s s.arg0.toNat s.arg2.toNat →
        ∃ t, CompletesAs .rgen s t ∧
          t = { s with prng := maskState s.params s.arg1.toNat s.arg2.toNat, dmem := t.dmem } ∧
          (∀ i, i < s.arg2.toNat → t.readByte (s.arg0.toNat + i) = maskByte s.params s.arg1.toNat i) ∧
          ∀ a, (a < s.arg0.toNat ∨ s.arg0.toNat + s.arg2.toNat ≤ a) → t.readByte a = s.readByte a)

/-- RMASK: as RGEN, the mask XORed into the buffer (R106). -/
def Obligations.RmaskXorsTheMask : Prop :=
  decode 0x00000013#32 = .ok .rmask ∧
    ∀ s : State,
      (0x10000 ≤ s.arg1.toNat → EndsWith .rmask s .invalidArgument 0x014#32) ∧
      (s.arg1.toNat < 0x10000 → ¬ InDmem s s.arg0.toNat s.arg2.toNat → EndsWith .rmask s .addressError 0x010#32) ∧
      (s.arg1.toNat < 0x10000 → InDmem s s.arg0.toNat s.arg2.toNat →
        ∃ t, CompletesAs .rmask s t ∧
          t = { s with prng := maskState s.params s.arg1.toNat s.arg2.toNat, dmem := t.dmem } ∧
          (∀ i, i < s.arg2.toNat →
            t.readByte (s.arg0.toNat + i) =
              s.readByte (s.arg0.toNat + i) ^^^ maskByte s.params s.arg1.toNat i) ∧
          ∀ a, (a < s.arg0.toNat ∨ s.arg0.toNat + s.arg2.toNat ≤ a) → t.readByte a = s.readByte a)

/-- The mask is an involution: a second RMASK with the same ARG0, ARG1 and ARG2 restores DMEM (R107). -/
def Obligations.MaskIsAnInvolution : Prop :=
  ∀ s : State, s.arg1.toNat < 0x10000 → InDmem s s.arg0.toNat s.arg2.toNat →
    ∃ t u, exec .rmask s = .next t ∧ exec .rmask t = .next u ∧ ∀ a, u.readByte a = s.readByte a

/-- The stream depends only on the seed: two RGEN with the same seed and length, in any two states of one build, write the
same bytes and leave the same S (R108). -/
def Obligations.TheStreamDependsOnlyOnTheSeed : Prop :=
  ∀ s s' : State, s'.params.seedExt = s.params.seedExt → s'.arg1 = s.arg1 → s'.arg2 = s.arg2 →
    s.arg1.toNat < 0x10000 → InDmem s s.arg0.toNat s.arg2.toNat → InDmem s' s'.arg0.toNat s'.arg2.toNat →
    ∃ t t', exec .rgen s = .next t ∧ exec .rgen s' = .next t' ∧ t'.prng = t.prng ∧
      ∀ i, i < s.arg2.toNat → t'.readByte (s'.arg0.toNat + i) = t.readByte (s.arg0.toNat + i)

/-! ### GF(257) arithmetic -/

/-- GMOD: RES0 is the Euclidean remainder by 257 of the signed ARG0 (R123). -/
def Obligations.GmodReducesTheSignedOperand : Prop :=
  decode 0x00000020#32 = .ok .gmod ∧
    ∀ s : State, CompletesAs .gmod s { s with res0 := BitVec.ofNat 32 (s.arg0.toInt % 257).toNat }

/-- GINV: an operand above 256 is INVALID_ARGUMENT, zero is ARITHMETIC_FAILURE, and otherwise RES0 is the canonical v with
(ARG0·v) mod 257 = 1 (R124). -/
def Obligations.GinvGivesTheInverse : Prop :=
  decode 0x00000021#32 = .ok .ginv ∧
    ∀ s : State,
      (256 < s.arg0.toNat → EndsWith .ginv s .invalidArgument 0x010#32) ∧
      (s.arg0.toNat = 0 → EndsWith .ginv s .arithmeticFailure 0x010#32) ∧
      (1 ≤ s.arg0.toNat → s.arg0.toNat ≤ 256 →
        ∃ v, 1 ≤ v ∧ v ≤ 256 ∧ (s.arg0.toNat * v) % 257 = 1 ∧
          CompletesAs .ginv s { s with res0 := BitVec.ofNat 32 v })

/-- GADD: ARG0 is checked first, then ARG1; RES0 is (a + b) mod 257 (R125). -/
def Obligations.GaddAddsFieldElements : Prop :=
  decode 0x00000022#32 = .ok .gadd ∧
    ∀ s : State,
      (256 < s.arg0.toNat → EndsWith .gadd s .invalidArgument 0x010#32) ∧
      (s.arg0.toNat ≤ 256 → 256 < s.arg1.toNat → EndsWith .gadd s .invalidArgument 0x014#32) ∧
      (s.arg0.toNat ≤ 256 → s.arg1.toNat ≤ 256 →
        CompletesAs .gadd s { s with res0 := BitVec.ofNat 32 ((s.arg0.toNat + s.arg1.toNat) % 257) })

/-- GSUB: ARG0 is checked first, then ARG1; RES0 is (a − b) mod 257, never negative (R126). -/
def Obligations.GsubSubtractsFieldElements : Prop :=
  decode 0x00000023#32 = .ok .gsub ∧
    ∀ s : State,
      (256 < s.arg0.toNat → EndsWith .gsub s .invalidArgument 0x010#32) ∧
      (s.arg0.toNat ≤ 256 → 256 < s.arg1.toNat → EndsWith .gsub s .invalidArgument 0x014#32) ∧
      (s.arg0.toNat ≤ 256 → s.arg1.toNat ≤ 256 →
        CompletesAs .gsub s { s with res0 := BitVec.ofNat 32 ((s.arg0.toNat + 257 - s.arg1.toNat) % 257) })

/-- GMUL: ARG0 is checked first, then ARG1; RES0 is (a · b) mod 257 (R127). -/
def Obligations.GmulMultipliesFieldElements : Prop :=
  decode 0x00000024#32 = .ok .gmul ∧
    ∀ s : State,
      (256 < s.arg0.toNat → EndsWith .gmul s .invalidArgument 0x010#32) ∧
      (s.arg0.toNat ≤ 256 → 256 < s.arg1.toNat → EndsWith .gmul s .invalidArgument 0x014#32) ∧
      (s.arg0.toNat ≤ 256 → s.arg1.toNat ≤ 256 →
        CompletesAs .gmul s { s with res0 := BitVec.ofNat 32 ((s.arg0.toNat * s.arg1.toNat) % 257) })

/-- INV[i] is, for every i in [1, 256], the unique canonical value with (i · INV[i]) mod 257 = 1, it lies in [1, 256], and
only 1 and 256 are their own inverses (R122). -/
def Obligations.InverseTableIsTheUniqueInverse : Prop :=
  ∀ i, 1 ≤ i → i ≤ 256 →
    1 ≤ inv i ∧ inv i ≤ 256 ∧ (i * inv i) % 257 = 1 ∧
      (∀ v, v ≤ 256 → (i * v) % 257 = 1 → v = inv i) ∧ (inv i = i ↔ i = 1 ∨ i = 256)

/-- Field correctness: GMUL of a and INV[a] gives 1, and every GMOD result lies in [0, 256] (R128). -/
def Obligations.FieldCorrectness : Prop :=
  (∀ s : State, 1 ≤ s.arg0.toNat → s.arg0.toNat ≤ 256 → s.arg1 = BitVec.ofNat 32 (inv s.arg0.toNat) →
    ∃ t, exec .gmul s = .next t ∧ t.res0 = 1#32 ∧ t.status.err = s.status.err) ∧
  ∀ s : State, ∃ t, exec .gmod s = .next t ∧ t.res0.toNat ≤ 256

/-! ### Polynomial evaluator and sharing -/

/-- PEVAL: CFG.K, then ARG0, then COEF in increasing index are checked; RES0 is Σ COEF[t]·x^t mod 257, with no repair (R142). -/
def Obligations.PevalEvaluatesThePolynomial : Prop :=
  decode 0x00000030#32 = .ok .peval ∧
    ∀ s : State,
      (¬ LegalK s → EndsWith .peval s .invalidArgument 0x028#32) ∧
      (LegalK s → 256 < s.arg0.toNat → EndsWith .peval s .invalidArgument 0x010#32) ∧
      (LegalK s → s.arg0.toNat ≤ 256 → ∀ j, j < s.cfgK.toNat → 256 < (s.coefEntry j).toNat →
        (∀ i, i < j → (s.coefEntry i).toNat ≤ 256) →
        EndsWith .peval s .invalidArgument (BitVec.ofNat 32 (0xC00 + 4 * j))) ∧
      (LegalK s → s.arg0.toNat ≤ 256 → (∀ j, j < s.cfgK.toNat → (s.coefEntry j).toNat ≤ 256) →
        CompletesAs .peval s { s with res0 := BitVec.ofNat 32 (poly (coefs s s.cfgK.toNat) s.arg0.toNat) })

/-- PSHARE: CFG, then COEF in increasing index are checked; then the coefficients are repaired, the first nonzero one lowered
at a time, r times, where r is the least number after which all n values are bytes; COEF and YTAB take the repaired
coefficients and their values, REPAIRS is r, RPR is set if r > 0, and nothing else changes (R143). What one repair does is
said by RepairLowersTheFirstNonzero. -/
def Obligations.PshareRepairsAndShares : Prop :=
  decode 0x00000031#32 = .ok .pshare ∧
    ∀ s : State,
      (¬ LegalKN s → EndsWith .pshare s .invalidArgument 0x028#32) ∧
      (LegalKN s → ∀ j, j < s.cfgK.toNat → 255 < (s.coefEntry j).toNat →
        (∀ i, i < j → (s.coefEntry i).toNat ≤ 255) →
        EndsWith .pshare s .invalidArgument (BitVec.ofNat 32 (0xC00 + 4 * j))) ∧
      (LegalKN s → (∀ j, j < s.cfgK.toNat → (s.coefEntry j).toNat ≤ 255) →
        ∃ t r, CompletesAs .pshare s t ∧
          (∀ r', r' < r → ∃ i, 1 ≤ i ∧ i ≤ s.cfgN.toNat ∧ poly (repairOnce^[r'] (coefs s s.cfgK.toNat)) i = 256) ∧
          (∀ i, 1 ≤ i → i ≤ s.cfgN.toNat → poly (repairOnce^[r] (coefs s s.cfgK.toNat)) i ≤ 255) ∧
          (∀ j, j < s.cfgK.toNat →
            (t.coefEntry j).toNat = (repairOnce^[r] (coefs s s.cfgK.toNat)).getD j 0) ∧
          (∀ j, s.cfgK.toNat ≤ j → t.coefEntry j = s.coefEntry j) ∧
          (∀ i, i < s.cfgN.toNat →
            (t.yEntry i).toNat = poly (repairOnce^[r] (coefs s s.cfgK.toNat)) (i + 1)) ∧
          (∀ i, s.cfgN.toNat ≤ i → t.yEntry i = s.yEntry i) ∧
          t = { s with
            coef := t.coef
            ytab := t.ytab
            repairs := BitVec.ofNat 32 (min r (2 ^ 32 - 1))
            status := { s.status with rpr := s.status.rpr || decide (0 < r) } })

/-- One repair lowers the lowest-index nonzero coefficient by 1 and leaves the others (R141). -/
def Obligations.RepairLowersTheFirstNonzero : Prop :=
  ∀ (c : List Nat) (t : Nat), t < c.length → c.getD t 0 ≠ 0 → (∀ i, i < t → c.getD i 0 = 0) →
    repairOnce c = c.set t (c.getD t 0 - 1)

/-- The repair loop ends by itself: on byte coefficients the count is at most their sum, every value is a byte, and more
passes would change nothing (R146). -/
def Obligations.RepairLoopEnds : Prop :=
  ∀ (c : List Nat) (n : Nat), (∀ a ∈ c, a ≤ 255) →
    (share c n).2.2 ≤ c.sum ∧ c.sum ≤ 255 * c.length ∧ (∀ v ∈ (share c n).2.1, v ≤ 255) ∧
      ∀ extra, shareLoop (c.sum + extra) c n 0 = share c n

/-- Repair is lossy: a count above 0 means other coefficients, whose sum is lower by the count (R145). -/
def Obligations.RepairIsLossy : Prop :=
  ∀ (c : List Nat) (n : Nat), (∀ a ∈ c, a ≤ 255) →
    (share c n).1.sum + (share c n).2.2 = c.sum ∧ (0 < (share c n).2.2 → (share c n).1 ≠ c)

/-- PSHAREBUF: CFG, then the shadow ranges, then the source range are checked; otherwise, for any overlap, it completes,
changes only DMEM in its write set, REPAIRS and RPR, and with G = 0 writes nothing and sets REPAIRS = 0 (R144). -/
def Obligations.PsharebufChecksAndCompletes : Prop :=
  decode 0x00000032#32 = .ok .psharebuf ∧
    ∀ s : State,
      (¬ LegalKN s → EndsWith .psharebuf s .invalidArgument 0x028#32) ∧
      (LegalKN s → (∃ m, m < s.cfgN.toNat ∧ ¬ InDmem s (s.arg0.toNat + m * s.arg3.toNat) s.arg2.toNat) →
        EndsWith .psharebuf s .addressError 0x010#32) ∧
      (LegalKN s → (∀ m, m < s.cfgN.toNat → InDmem s (s.arg0.toNat + m * s.arg3.toNat) s.arg2.toNat) →
        ¬ InDmem s s.arg1.toNat (s.arg2.toNat * s.cfgK.toNat) → EndsWith .psharebuf s .addressError 0x014#32) ∧
      (LegalKN s → (∀ m, m < s.cfgN.toNat → InDmem s (s.arg0.toNat + m * s.arg3.toNat) s.arg2.toNat) →
        InDmem s s.arg1.toNat (s.arg2.toNat * s.cfgK.toNat) →
        ∃ t, CompletesAs .psharebuf s t ∧
          t = { s with
            dmem := t.dmem
            repairs := t.repairs
            status := { s.status with rpr := s.status.rpr || decide (t.repairs ≠ 0#32) } } ∧
          (∀ a, ¬ WritesDmem .psharebuf s a → t.readByte a = s.readByte a) ∧
          (s.arg2.toNat = 0 → t.dmem = s.dmem ∧ t.repairs = 0#32))

/-- PSHAREBUF goes group by group, whatever overlaps: group j is read from the memory m j that the groups before it left, its
repaired coefficients go back over it, then pixel j of each shadow is written in increasing index, so that where two of
these fall on one byte the later one stands; REPAIRS is the saturated sum (R144, R258). On ranges that do not overlap, each
group is therefore shared as it was before the command, its repaired group stands over it, and pixel j of shadow m is its
value at m+1. -/
def Obligations.PsharebufSharesEachGroup : Prop :=
  ∀ s : State, LegalKN s →
    (∀ m, m < s.cfgN.toNat → InDmem s (s.arg0.toNat + m * s.arg3.toNat) s.arg2.toNat) →
    InDmem s s.arg1.toNat (s.arg2.toNat * s.cfgK.toNat) →
    ∃ t, exec .psharebuf s = .next t ∧
      (∃ (m : Nat → Nat → Byte) (sh : Nat → List Nat × List Nat × Nat),
        (∀ a, m 0 a = s.readByte a) ∧ (∀ a, t.readByte a = m s.arg2.toNat a) ∧
        (∀ j, j < s.arg2.toNat →
          sh j = share (groupIn (m j) (s.arg1.toNat + j * s.cfgK.toNat) s.cfgK.toNat) s.cfgN.toNat ∧
          (∀ i, i < s.cfgN.toNat →
            (∀ i', i < i' → i' < s.cfgN.toNat →
              s.arg0.toNat + i' * s.arg3.toNat + j ≠ s.arg0.toNat + i * s.arg3.toNat + j) →
            (m (j + 1) (s.arg0.toNat + i * s.arg3.toNat + j)).toNat = (sh j).2.1.getD i 0) ∧
          ∀ a, (∀ i, i < s.cfgN.toNat → a ≠ s.arg0.toNat + i * s.arg3.toNat + j) →
            (∀ i, i < s.cfgK.toNat → a = s.arg1.toNat + j * s.cfgK.toNat + i →
              (m (j + 1) a).toNat = (sh j).1.getD i 0) ∧
            ((a < s.arg1.toNat + j * s.cfgK.toNat ∨ s.arg1.toNat + j * s.cfgK.toNat + s.cfgK.toNat ≤ a) →
              m (j + 1) a = m j a)) ∧
        t.repairs.toNat = min (∑ j ∈ Finset.range s.arg2.toNat, (sh j).2.2) (2 ^ 32 - 1)) ∧
      (s.arg2.toNat ≤ s.arg3.toNat →
        (∀ m, m < s.cfgN.toNat →
          Apart s.arg1.toNat (s.arg2.toNat * s.cfgK.toNat) (s.arg0.toNat + m * s.arg3.toNat) s.arg2.toNat) →
        (∀ j, j < s.arg2.toNat →
          (∀ i, i < s.cfgK.toNat →
            (t.readByte (s.arg1.toNat + j * s.cfgK.toNat + i)).toNat =
              (share (bytesAt s (s.arg1.toNat + j * s.cfgK.toNat) s.cfgK.toNat) s.cfgN.toNat).1.getD i 0) ∧
          ∀ m, m < s.cfgN.toNat →
            (t.readByte (s.arg0.toNat + m * s.arg3.toNat + j)).toNat =
              (share (bytesAt s (s.arg1.toNat + j * s.cfgK.toNat) s.cfgK.toNat) s.cfgN.toNat).2.1.getD m 0) ∧
        t.repairs.toNat =
          min (∑ j ∈ Finset.range s.arg2.toNat,
            (share (bytesAt s (s.arg1.toNat + j * s.cfgK.toNat) s.cfgK.toNat) s.cfgN.toNat).2.2) (2 ^ 32 - 1))

/-! ### Vandermonde solver -/

/-- The pivots depend only on the points: after c column passes the pivot of row q at column c is Π_{m=1..c} (x_q − x_{q−m})
mod 257, and after forward elimination so is every diagonal entry (R167). -/
def Obligations.PivotsAreProductsOfDifferences : Prop :=
  ∀ (x y : List Nat) (k : Nat),
    (∀ c mat, c < k → forUpE c (fun c' a => eliminateColumn k c' a) (buildMat x y k) = .ok mat →
      ∀ q, c ≤ q → q < k →
        (matAt mat q c : ZMod 257) =
          ∏ m ∈ Finset.Icc 1 c, ((x.getD q 0 : ZMod 257) - (x.getD (q - m) 0 : ZMod 257))) ∧
    ∀ mat, forwardEliminate k (buildMat x y k) = .ok mat →
      ∀ i, i < k →
        (matAt mat i i : ZMod 257) =
          ∏ m ∈ Finset.Icc 1 i, ((x.getD i 0 : ZMod 257) - (x.getD (i - m) 0 : ZMod 257))

/-- On points that are pairwise distinct field elements the solver meets no zero pivot (R167). -/
def Obligations.SolverMeetsNoZeroPivot : Prop :=
  ∀ (x y : List Nat) (k : Nat), (∀ j, j < k → x.getD j 0 ≤ 256) →
    (∀ i j, i < j → j < k → x.getD i 0 ≠ x.getD j 0) → ∃ a, solve x y k = .ok a ∧ a.length = k

/-- VSOLVE: CFG.K, then the points, then YTAB are checked, each in increasing index; otherwise COEF[0..k) takes canonical
coefficients of the polynomial through the k points, and nothing else changes (R165, R168). -/
def Obligations.VsolveInterpolates : Prop :=
  decode 0x00000040#32 = .ok .vsolve ∧
    ∀ s : State,
      (¬ LegalK s → EndsWith .vsolve s .invalidArgument 0x028#32) ∧
      (LegalK s → ∀ j, j < s.cfgK.toNat → BadPoint s j → (∀ i, i < j → ¬ BadPoint s i) →
        EndsWith .vsolve s .malformedShadow (BitVec.ofNat 32 (0x400 + 4 * j))) ∧
      (LegalK s → GoodPoints s s.cfgK.toNat → ∀ j, j < s.cfgK.toNat → 256 < (s.yEntry j).toNat →
        (∀ i, i < j → (s.yEntry i).toNat ≤ 256) →
        EndsWith .vsolve s .invalidArgument (BitVec.ofNat 32 (0x800 + 4 * j))) ∧
      (LegalK s → GoodPoints s s.cfgK.toNat → (∀ j, j < s.cfgK.toNat → (s.yEntry j).toNat ≤ 256) →
        ∃ t, CompletesAs .vsolve s t ∧ t = { s with coef := t.coef } ∧
          (∀ j, s.cfgK.toNat ≤ j → t.coefEntry j = s.coefEntry j) ∧
          (∀ i, i < s.cfgK.toNat → (t.coefEntry i).toNat ≤ 256) ∧
          ∀ j, j < s.cfgK.toNat →
            poly (coefs t s.cfgK.toNat) (s.xEntry j).toNat = (s.yEntry j).toNat)

/-- Round trip: VSOLVE on any k distinct indices in [1, n], in any order, with the values PSHARE gave at them, returns exactly
the repaired coefficients PSHARE left in COEF (R168). -/
def Obligations.VsolveRecoversWhatPshareShared : Prop :=
  ∀ (s t u : State) (idx : Nat → Nat),
    LegalKN s → (∀ j, j < s.cfgK.toNat → (s.coefEntry j).toNat ≤ 255) → exec .pshare s = .next t →
    u.cfgK = s.cfgK → u.params = s.params →
    (∀ j, j < s.cfgK.toNat → 1 ≤ idx j ∧ idx j ≤ s.cfgN.toNat) →
    (∀ i j, i < j → j < s.cfgK.toNat → idx i ≠ idx j) →
    (∀ j, j < s.cfgK.toNat → u.xEntry j = BitVec.ofNat 8 (idx j) ∧ u.yEntry j = t.yEntry (idx j - 1)) →
    ∃ w, exec .vsolve u = .next w ∧ w.status.err = u.status.err ∧
      ∀ j, j < s.cfgK.toNat → w.coefEntry j = t.coefEntry j

/-- VRECON: CFG.K, then the points, then the output range, then the row ranges are checked; otherwise, for any overlap, it
completes, changes only DMEM in its output range and WRAP, and with M = 0 writes nothing (R166). -/
def Obligations.VreconChecksAndCompletes : Prop :=
  decode 0x00000041#32 = .ok .vrecon ∧
    ∀ s : State,
      (¬ LegalK s → EndsWith .vrecon s .invalidArgument 0x028#32) ∧
      (LegalK s → ∀ j, j < s.cfgK.toNat → BadPoint s j → (∀ i, i < j → ¬ BadPoint s i) →
        EndsWith .vrecon s .malformedShadow (BitVec.ofNat 32 (0x400 + 4 * j))) ∧
      (LegalK s → GoodPoints s s.cfgK.toNat → ¬ InDmem s s.arg0.toNat (s.arg2.toNat * s.cfgK.toNat) →
        EndsWith .vrecon s .addressError 0x010#32) ∧
      (LegalK s → GoodPoints s s.cfgK.toNat → InDmem s s.arg0.toNat (s.arg2.toNat * s.cfgK.toNat) →
        (∃ j, j < s.cfgK.toNat ∧ ¬ InDmem s (s.arg1.toNat + j * s.arg3.toNat) s.arg2.toNat) →
        EndsWith .vrecon s .addressError 0x014#32) ∧
      (LegalK s → GoodPoints s s.cfgK.toNat → InDmem s s.arg0.toNat (s.arg2.toNat * s.cfgK.toNat) →
        (∀ j, j < s.cfgK.toNat → InDmem s (s.arg1.toNat + j * s.arg3.toNat) s.arg2.toNat) →
        ∃ t, CompletesAs .vrecon s t ∧
          t = { s with dmem := t.dmem, status := { s.status with wrap := t.status.wrap } } ∧
          (s.status.wrap = true → t.status.wrap = true) ∧
          (∀ a, ¬ WritesDmem .vrecon s a → t.readByte a = s.readByte a) ∧
          (s.arg2.toNat = 0 → t = s))

/-- VRECON goes group by group, whatever overlaps: the k rows' pixels p are read from the memory m p that the groups before
it left, and the k output bytes of group p are the low bytes of canonical coefficients a p of the polynomial through them;
no other byte changes; WRAP is set exactly when one of the coefficients is 256 (R166, R168, R258). Where the output overlaps
no row, the pixels are those before the command. -/
def Obligations.VreconSolvesEachGroup : Prop :=
  ∀ s : State, LegalK s → GoodPoints s s.cfgK.toNat → InDmem s s.arg0.toNat (s.arg2.toNat * s.cfgK.toNat) →
    (∀ j, j < s.cfgK.toNat → InDmem s (s.arg1.toNat + j * s.arg3.toNat) s.arg2.toNat) →
    ∃ (t : State) (m : Nat → Nat → Byte) (a : Nat → List Nat), exec .vrecon s = .next t ∧
      (∀ b, m 0 b = s.readByte b) ∧ (∀ b, t.readByte b = m s.arg2.toNat b) ∧
      (∀ p, p < s.arg2.toNat →
        (a p).length = s.cfgK.toNat ∧ (∀ v ∈ a p, v ≤ 256) ∧
        (∀ j, j < s.cfgK.toNat →
          poly (a p) (s.xEntry j).toNat = (m p (s.arg1.toNat + j * s.arg3.toNat + p)).toNat) ∧
        (∀ i, i < s.cfgK.toNat →
          (m (p + 1) (s.arg0.toNat + p * s.cfgK.toNat + i)).toNat = (a p).getD i 0 % 256) ∧
        ∀ b, (b < s.arg0.toNat + p * s.cfgK.toNat ∨ s.arg0.toNat + p * s.cfgK.toNat + s.cfgK.toNat ≤ b) →
          m (p + 1) b = m p b) ∧
      (t.status.wrap = true ↔ s.status.wrap = true ∨ ∃ p, p < s.arg2.toNat ∧ 256 ∈ a p) ∧
      ((∀ j, j < s.cfgK.toNat →
          Apart s.arg0.toNat (s.arg2.toNat * s.cfgK.toNat) (s.arg1.toNat + j * s.arg3.toNat) s.arg2.toNat) →
        ∀ p, p < s.arg2.toNat →
          (∀ j, j < s.cfgK.toNat →
            poly (a p) (s.xEntry j).toNat = (s.readByte (s.arg1.toNat + j * s.arg3.toNat + p)).toNat) ∧
          ∀ i, i < s.cfgK.toNat →
            (t.readByte (s.arg0.toNat + p * s.cfgK.toNat + i)).toNat = (a p).getD i 0 % 256)

/-! ### Stego -/

/-- SHIDE: the carrier range, then the shadow range are checked; otherwise only bit 0 of the 8L carrier bytes may change, and
where the shadow does not overlap the carrier, bit 0 of carrier byte 8i+j is bit 7−j of shadow byte i. Whatever overlaps,
the bytes are done in order: shadow byte i is read from the memory m i that the ones before it left, before its 8 carrier
writes (R182, R258). -/
def Obligations.ShideHidesMsbFirst : Prop :=
  decode 0x00000050#32 = .ok .shide ∧
    ∀ s : State,
      (¬ InDmem s s.arg0.toNat (8 * s.arg2.toNat) → EndsWith .shide s .addressError 0x010#32) ∧
      (InDmem s s.arg0.toNat (8 * s.arg2.toNat) → ¬ InDmem s s.arg1.toNat s.arg2.toNat →
        EndsWith .shide s .addressError 0x014#32) ∧
      (InDmem s s.arg0.toNat (8 * s.arg2.toNat) → InDmem s s.arg1.toNat s.arg2.toNat →
        ∃ t, CompletesAs .shide s t ∧ t = { s with dmem := t.dmem } ∧
          (∀ a, (a < s.arg0.toNat ∨ s.arg0.toNat + 8 * s.arg2.toNat ≤ a) → t.readByte a = s.readByte a) ∧
          (∀ a b, 1 ≤ b → (t.readByte a).getLsbD b = (s.readByte a).getLsbD b) ∧
          (Apart s.arg0.toNat (8 * s.arg2.toNat) s.arg1.toNat s.arg2.toNat →
            ∀ i j, i < s.arg2.toNat → j < 8 →
              (t.readByte (s.arg0.toNat + 8 * i + j)).getLsbD 0 =
                (s.readByte (s.arg1.toNat + i)).getLsbD (7 - j)) ∧
          ∃ m : Nat → Nat → Byte, (∀ a, m 0 a = s.readByte a) ∧ (∀ a, t.readByte a = m s.arg2.toNat a) ∧
            ∀ i, i < s.arg2.toNat →
              (∀ j, j < 8 →
                (m (i + 1) (s.arg0.toNat + 8 * i + j)).getLsbD 0 = (m i (s.arg1.toNat + i)).getLsbD (7 - j)) ∧
              (∀ a b, 1 ≤ b → (m (i + 1) a).getLsbD b = (m i a).getLsbD b) ∧
              ∀ a, (a < s.arg0.toNat + 8 * i ∨ s.arg0.toNat + 8 * i + 8 ≤ a) → m (i + 1) a = m i a)

/-- SREVEAL: the output range, then the carrier range are checked; otherwise only the L output bytes may change, and where the
output does not overlap the carrier, bit 7−j of output byte i is bit 0 of carrier byte 8i+j. Whatever overlaps, the bytes
are done in order: output byte i comes from the memory m i that the ones before it left (R183, R258). -/
def Obligations.SrevealReadsMsbFirst : Prop :=
  decode 0x00000051#32 = .ok .sreveal ∧
    ∀ s : State,
      (¬ InDmem s s.arg0.toNat s.arg2.toNat → EndsWith .sreveal s .addressError 0x010#32) ∧
      (InDmem s s.arg0.toNat s.arg2.toNat → ¬ InDmem s s.arg1.toNat (8 * s.arg2.toNat) →
        EndsWith .sreveal s .addressError 0x014#32) ∧
      (InDmem s s.arg0.toNat s.arg2.toNat → InDmem s s.arg1.toNat (8 * s.arg2.toNat) →
        ∃ t, CompletesAs .sreveal s t ∧ t = { s with dmem := t.dmem } ∧
          (∀ a, (a < s.arg0.toNat ∨ s.arg0.toNat + s.arg2.toNat ≤ a) → t.readByte a = s.readByte a) ∧
          (Apart s.arg0.toNat s.arg2.toNat s.arg1.toNat (8 * s.arg2.toNat) →
            ∀ i j, i < s.arg2.toNat → j < 8 →
              (t.readByte (s.arg0.toNat + i)).getLsbD (7 - j) =
                (s.readByte (s.arg1.toNat + 8 * i + j)).getLsbD 0) ∧
          ∃ m : Nat → Nat → Byte, (∀ a, m 0 a = s.readByte a) ∧ (∀ a, t.readByte a = m s.arg2.toNat a) ∧
            ∀ i, i < s.arg2.toNat →
              (∀ j, j < 8 →
                (m (i + 1) (s.arg0.toNat + i)).getLsbD (7 - j) = (m i (s.arg1.toNat + 8 * i + j)).getLsbD 0) ∧
              ∀ a, a ≠ s.arg0.toNat + i → m (i + 1) a = m i a)

/-- LSB fidelity and round trip: a SHIDE, then a SREVEAL of the same carrier with its ranges apart: bits 7:1 of every carrier
byte are kept, the LSBs are the shadow MSB first, and the bytes revealed are the shadow's as they were (R184). -/
def Obligations.StegoRoundTrip : Prop :=
  ∀ s t u : State,
    InDmem s s.arg0.toNat (8 * s.arg2.toNat) → InDmem s s.arg1.toNat s.arg2.toNat →
    Apart s.arg0.toNat (8 * s.arg2.toNat) s.arg1.toNat s.arg2.toNat → exec .shide s = .next t →
    u.dmem = t.dmem → u.powerOns = t.powerOns → u.params = t.params → u.arg1 = s.arg0 → u.arg2 = s.arg2 →
    InDmem u u.arg0.toNat u.arg2.toNat →
    Apart u.arg0.toNat u.arg2.toNat u.arg1.toNat (8 * u.arg2.toNat) →
    (∀ i b, i < 8 * s.arg2.toNat → 1 ≤ b →
      (t.readByte (s.arg0.toNat + i)).getLsbD b = (s.readByte (s.arg0.toNat + i)).getLsbD b) ∧
    (∀ i j, i < s.arg2.toNat → j < 8 →
      (t.readByte (s.arg0.toNat + 8 * i + j)).getLsbD 0 = (s.readByte (s.arg1.toNat + i)).getLsbD (7 - j)) ∧
    ∃ w, exec .sreveal u = .next w ∧
      ∀ i, i < s.arg2.toNat → w.readByte (u.arg0.toNat + i) = s.readByte (s.arg1.toNat + i)

/-! ### The host interface -/

/-- A host write of w to STATUS clears the flags written 1, with ERR also ERRCODE and ERRINFO, and changes nothing else, BUSY
or not (R27). -/
def Obligations.StatusWriteClearsOnes : Prop :=
  ∀ (s : State) (w : Word),
    s.busWrite .w32 0x008#32 w = { s with
      status :=
        { busy := s.status.busy
          done := s.status.done && !w.getLsbD 1
          err := s.status.err && !w.getLsbD 2
          rpr := s.status.rpr && !w.getLsbD 3
          wrap := s.status.wrap && !w.getLsbD 4
          drop := s.status.drop && !w.getLsbD 5
          hzd := s.status.hzd && !w.getLsbD 6
          accerr := s.status.accerr && !w.getLsbD 7
          errcode := if w.getLsbD 2 = true then 0#8 else s.status.errcode }
      errinfo := if w.getLsbD 2 = true then 0#32 else s.errinfo }

/-- Return from an error: after a STATUS write with bit 2 set, ERR, ERRCODE and ERRINFO are clear, no storage has changed, and
the next CMD write to an idle engine is accepted (R224). -/
def Obligations.ReturnFromErrorReopensTheEngine : Prop :=
  ∀ (s : State) (w c : Word), w.getLsbD 2 = true → s.phase = .idle →
    ∃ t, s.busWrite .w32 0x008#32 w = t ∧ t.status.err = false ∧ t.status.errcode = 0#8 ∧ t.errinfo = 0#32 ∧
      t.dmem = s.dmem ∧ t.coef = s.coef ∧ t.ytab = s.ytab ∧ t.xtab = s.xtab ∧ t.prng = s.prng ∧ t.res0 = s.res0 ∧
      t.repairs = s.repairs ∧
      t.busWrite .w32 0x00C#32 c = { t with phase := .busy c, status := accepted t.status }

/-- STATUS as a word: BUSY, DONE, ERR, RPR, WRAP, DROP, HZD, ACCERR in bits 0 to 7, ERRCODE in 15:8, zeros in 31:16 (R26). -/
def Obligations.StatusWordLayout : Prop :=
  ∀ s : State,
    (s.busRead .w32 0x008#32).2 = s ∧
      ∀ v, v = (s.busRead .w32 0x008#32).1 →
        v.getLsbD 0 = s.status.busy ∧ v.getLsbD 1 = s.status.done ∧ v.getLsbD 2 = s.status.err ∧
          v.getLsbD 3 = s.status.rpr ∧ v.getLsbD 4 = s.status.wrap ∧ v.getLsbD 5 = s.status.drop ∧
          v.getLsbD 6 = s.status.hzd ∧ v.getLsbD 7 = s.status.accerr ∧
          v.extractLsb' 8 8 = s.status.errcode ∧ v.extractLsb' 16 16 = 0#16

/-- An illegal access sets ACCERR and changes nothing else, and a read of it returns 0 (R63). A legal access never sets
ACCERR: a legal read changes nothing at all with BUSY = 0, and with BUSY = 1 nothing but the draw counter, which is the
model's (notes/assumptions/5.md); a legal write keeps it, but for a STATUS write that clears it and a CTRL write with SRST
that resets it (R25, R26, R27, R68, R251). -/
def Obligations.IllegalAccessOnlySetsAccerr : Prop :=
  ∀ (s : State) (w : Width) (off v : Word),
    (¬ LegalAccess s.params w off →
      s.busRead w off = (0#32, { s with status := { s.status with accerr := true } }) ∧
        s.busWrite w off v = { s with status := { s.status with accerr := true } }) ∧
    (LegalAccess s.params w off →
      (s.status.busy = false → (s.busRead w off).2 = s) ∧
      (s.busRead w off).2 = { s with draws := (s.busRead w off).2.draws } ∧
      (off ≠ 0x004#32 → off ≠ 0x008#32 → (s.busWrite w off v).status.accerr = s.status.accerr) ∧
      (off = 0x004#32 → v.getLsbD 1 = false → s.busWrite w off v = { s with ie := v.getLsbD 0 }) ∧
      (off = 0x004#32 → v.getLsbD 1 = true → (s.busWrite w off v).status.accerr = false) ∧
      (off = 0x008#32 → (s.busWrite w off v).status.accerr = (s.status.accerr && !v.getLsbD 7)))

/-- DMEM is little-endian: with BUSY = 0, a legal write of n bytes at DMEM address a sets bytes a to a+n−1 from the least
significant up and no other state, and a legal read returns Σ DMEM[a+i]·2^(8i) and changes nothing (R64). -/
def Obligations.DmemAccessIsLittleEndian : Prop :=
  ∀ (s : State) (w : Width) (a : Nat) (v : Word), Params.legal s.params → s.status.busy = false →
    a % w.bytes = 0 → a + w.bytes ≤ s.params.dmemSize →
    (∃ t, s.busWrite w (BitVec.ofNat 32 (0x100000 + a)) v = t ∧ t = { s with dmem := t.dmem } ∧
      (∀ i, i < w.bytes → (t.readByte (a + i)).toNat = v.toNat / 2 ^ (8 * i) % 256) ∧
      ∀ c, (c < a ∨ a + w.bytes ≤ c) → t.readByte c = s.readByte c) ∧
    ∃ n, s.busRead w (BitVec.ofNat 32 (0x100000 + a)) = (n, s) ∧
      n.toNat = ∑ i ∈ Finset.range w.bytes, (s.readByte (a + i)).toNat * 2 ^ (8 * i)

/-- While BUSY = 1 a legal write to ARG0 to ARG3, CFG, PRNG_LO, PRNG_HI, a table entry or DMEM only sets HZD; a write to a
read-only register does nothing; writes to CTRL and STATUS are performed; a CMD write in a command is dropped (R255). -/
def Obligations.BusyWindowIgnoresOperandWrites : Prop :=
  ∀ (s : State) (w : Width) (off v : Word), s.status.busy = true → LegalAccess s.params w off →
    ((off ∈ [0x010#32, 0x014#32, 0x018#32, 0x01C#32, 0x028#32, 0x02C#32, 0x030#32] ∨ 0x400 ≤ off.toNat) →
      s.busWrite w off v = { s with status := { s.status with hzd := true } }) ∧
    (off ∈ [0x000#32, 0x020#32, 0x034#32, 0x038#32, 0x03C#32, 0x040#32] → s.busWrite w off v = s) ∧
    (off = 0x004#32 → v.getLsbD 1 = false → s.busWrite w off v = { s with ie := v.getLsbD 0 }) ∧
    (off = 0x004#32 → v.getLsbD 1 = true → s.busWrite w off v = s.softReset) ∧
    (off = 0x008#32 → s.busWrite w off v = s.writeStatus v) ∧
    (off = 0x00C#32 → s.phase ≠ .idle → s.busWrite w off v = { s with status := { s.status with drop := true } })

/-- While BUSY = 1 a read of RES0, PRNG_LO, PRNG_HI, REPAIRS, ERRINFO, a YTAB or COEF entry or a DMEM byte is a free value and
changes no state of the GFU; the other registers and XTAB read as they are (R256). The draw counter is the model's,
notes/assumptions/5.md; that XTAB reads as its entry is DEDUCED from R256 against the mention of XTAB in U9, unsafe if a
build leaves that read open, notes/assumptions/9.md. -/
def Obligations.BusyWindowReads : Prop :=
  ∀ s : State, s.status.busy = true →
    (∀ off ∈ [0x020#32, 0x02C#32, 0x030#32, 0x034#32, 0x038#32],
      s.busRead .w32 off = (Config.freeWord s.draws, { s with draws := s.draws + 1 })) ∧
    (∀ j, j < 256 →
      s.busRead .w32 (BitVec.ofNat 32 (0x800 + 4 * j)) =
          ((Config.freeEntry s.draws).zeroExtend 32, { s with draws := s.draws + 1 }) ∧
        s.busRead .w32 (BitVec.ofNat 32 (0xC00 + 4 * j)) =
          ((Config.freeEntry s.draws).zeroExtend 32, { s with draws := s.draws + 1 }) ∧
        s.busRead .w32 (BitVec.ofNat 32 (0x400 + 4 * j)) = ((s.xEntry j).zeroExtend 32, s)) ∧
    (∀ (w : Width) (a : Nat), a % w.bytes = 0 → a + w.bytes ≤ s.params.dmemSize → 0x100000 + a + w.bytes ≤ 2 ^ 32 →
      ∃ n, s.busRead w (BitVec.ofNat 32 (0x100000 + a)) = (n, { s with draws := s.draws + w.bytes }) ∧
        n.toNat = ∑ i ∈ Finset.range w.bytes, (Config.freeByte (s.draws + i)).toNat * 2 ^ (8 * i)) ∧
    s.busRead .w32 0x000#32 = (0x47460107#32, s) ∧
    s.busRead .w32 0x004#32 = ((BitVec.ofBool s.ie).zeroExtend 32, s) ∧
    s.busRead .w32 0x008#32 = (s.status.word, s) ∧
    s.busRead .w32 0x010#32 = (s.arg0, s) ∧ s.busRead .w32 0x014#32 = (s.arg1, s) ∧
    s.busRead .w32 0x018#32 = (s.arg2, s) ∧ s.busRead .w32 0x01C#32 = (s.arg3, s) ∧
    s.busRead .w32 0x028#32 = ((s.cfgN ++ s.cfgK).zeroExtend 32, s) ∧
    s.busRead .w32 0x03C#32 = (paramWord s.params, s) ∧
    s.busRead .w32 0x040#32 = (BitVec.ofNat 32 s.params.dmemSize, s)

/-- With BUSY = 0, every register that a host can write or a command writes reads as what it holds, CTRL as IE alone, STATUS as
the word of its fields and CMD as 0, and the read changes nothing (the constants ID, PARAM and DMEMSZ read as
ReadOnlyRegistersIgnoreWrites says); a write to ARG0 to ARG3, CFG, PRNG_LO, PRNG_HI or, with SRST = 0, CTRL sets its own field as the rule says and
changes nothing else: ARG0 to ARG3 keep all 32 bits, CFG its K and N, CTRL its IE, and PRNG_LO and PRNG_HI the two parts of
S (R25, R26, R28, R29, R30, R31, R32, R33, R34). A STATUS write is StatusWriteClearsOnes, a CMD write
CmdWriteIsAcceptedOrDropped. -/
def Obligations.RegistersReadBack : Prop :=
  ∀ (s : State) (v : Word), s.status.busy = false →
    s.busWrite .w32 0x010#32 v = { s with arg0 := v } ∧ s.busWrite .w32 0x014#32 v = { s with arg1 := v } ∧
    s.busWrite .w32 0x018#32 v = { s with arg2 := v } ∧ s.busWrite .w32 0x01C#32 v = { s with arg3 := v } ∧
    s.busRead .w32 0x010#32 = (s.arg0, s) ∧ s.busRead .w32 0x014#32 = (s.arg1, s) ∧
    s.busRead .w32 0x018#32 = (s.arg2, s) ∧ s.busRead .w32 0x01C#32 = (s.arg3, s) ∧
    (∀ off ∈ [0x010#32, 0x014#32, 0x018#32, 0x01C#32], ((s.busWrite .w32 off v).busRead .w32 off).1 = v) ∧
    ((s.busWrite .w32 0x028#32 v).busRead .w32 0x028#32).1.toNat = v.toNat % 2 ^ 16 ∧
    (v.getLsbD 1 = false → s.busWrite .w32 0x004#32 v = { s with ie := v.getLsbD 0 }) ∧
    s.busRead .w32 0x004#32 = ((if s.ie = true then 1#32 else 0#32), s) ∧
    (∃ n, s.busRead .w32 0x008#32 = (n, s) ∧
      n.toNat = s.status.done.toNat * 2 + s.status.err.toNat * 4 + s.status.rpr.toNat * 8 + s.status.wrap.toNat * 16 +
        s.status.drop.toNat * 32 + s.status.hzd.toNat * 64 + s.status.accerr.toNat * 128 +
        s.status.errcode.toNat * 256) ∧
    s.busRead .w32 0x00C#32 = (0#32, s) ∧
    s.busRead .w32 0x020#32 = (s.res0, s) ∧ s.busRead .w32 0x034#32 = (s.repairs, s) ∧
    s.busRead .w32 0x038#32 = (s.errinfo, s) ∧
    (∃ k n, s.busWrite .w32 0x028#32 v = { s with cfgK := k, cfgN := n } ∧ k.toNat = v.toNat % 2 ^ 8 ∧
      n.toNat = v.toNat / 2 ^ 8 % 2 ^ 8) ∧
    (∃ n, s.busRead .w32 0x028#32 = (n, s) ∧ n.toNat = s.cfgN.toNat * 2 ^ 8 + s.cfgK.toNat) ∧
    (∃ x, s.busWrite .w32 0x02C#32 v = { s with prng := x } ∧
      x.toNat = s.prng.toNat / 2 ^ 32 * 2 ^ 32 + v.toNat) ∧
    (∃ x, s.busWrite .w32 0x030#32 v = { s with prng := x } ∧
      x.toNat = v.toNat % 2 ^ 16 * 2 ^ 32 + s.prng.toNat % 2 ^ 32) ∧
    (∃ n, s.busRead .w32 0x02C#32 = (n, s) ∧ n.toNat = s.prng.toNat % 2 ^ 32) ∧
    ∃ n, s.busRead .w32 0x030#32 = (n, s) ∧ n.toNat = s.prng.toNat / 2 ^ 32

/-- With BUSY = 0, entry j of a table keeps 8 bits (XTAB) or 9 bits (YTAB, COEF) of a written word and shows them zero-extended,
and no other entry and no other state changes (R49, R38, R39, R40). -/
def Obligations.TableEntriesReadBack : Prop :=
  ∀ (s : State) (j : Nat) (v : Word), s.status.busy = false → j < 256 →
    (∃ t, s.busWrite .w32 (BitVec.ofNat 32 (0x400 + 4 * j)) v = t ∧ t = { s with xtab := t.xtab } ∧
      (t.busRead .w32 (BitVec.ofNat 32 (0x400 + 4 * j))).1.toNat = v.toNat % 2 ^ 8 ∧
      ∀ i, i ≠ j → t.xEntry i = s.xEntry i) ∧
    (∃ t, s.busWrite .w32 (BitVec.ofNat 32 (0x800 + 4 * j)) v = t ∧ t = { s with ytab := t.ytab } ∧
      (t.busRead .w32 (BitVec.ofNat 32 (0x800 + 4 * j))).1.toNat = v.toNat % 2 ^ 9 ∧
      ∀ i, i ≠ j → t.yEntry i = s.yEntry i) ∧
    ∃ t, s.busWrite .w32 (BitVec.ofNat 32 (0xC00 + 4 * j)) v = t ∧ t = { s with coef := t.coef } ∧
      (t.busRead .w32 (BitVec.ofNat 32 (0xC00 + 4 * j))).1.toNat = v.toNat % 2 ^ 9 ∧
      ∀ i, i ≠ j → t.coefEntry i = s.coefEntry i

/-- The read-only registers ignore writes and set no flag; ID, PARAM and DMEMSZ read their constants and CMD reads 0
(R24, R35, R36, R28). -/
def Obligations.ReadOnlyRegistersIgnoreWrites : Prop :=
  ∀ (s : State) (v : Word), Params.legal s.params →
    (∀ off ∈ [0x000#32, 0x020#32, 0x034#32, 0x038#32, 0x03C#32, 0x040#32], s.busWrite .w32 off v = s) ∧
    s.busRead .w32 0x000#32 = (0x47460107#32, s) ∧ s.busRead .w32 0x00C#32 = (0#32, s) ∧
    (∃ n, s.busRead .w32 0x03C#32 = (n, s) ∧
      n.toNat = s.params.kMax + 256 * (if s.params.seedExt = .sign then 1 else 0)) ∧
    ∃ n, s.busRead .w32 0x040#32 = (n, s) ∧ n.toNat = s.params.dmemSize

/-! ### Reset, interrupt and errors -/

/-- A CTRL write with SRST set resets every CSR, S, the phase and irq; XTAB, the host and the parameters are kept; with no
command in progress the tables and DMEM are kept; with one, every location outside its write set is kept, and every one in it
that exists reads as a free value, from a draw that this reset makes and that serves no other location (R251, R47). That the
write set is taken from the ARGs and CFG without the command's checks, and that a word that is no command has none, are
DEDUCED, notes/assumptions/6.md; the draw counter is the model's. -/
def Obligations.SoftResetResetsTheRegisters : Prop :=
  ∀ (s : State) (v : Word), v.getLsbD 1 = true →
    ∃ t, s.busWrite .w32 0x004#32 v = t ∧
      t = { State.resetWith s.params with
        xtab := s.xtab
        ytab := t.ytab
        coef := t.coef
        dmem := t.dmem
        powerOns := s.powerOns
        draws := t.draws
        host := s.host
        schedule := s.schedule } ∧
      t.irq = false ∧
      (s.phase = .idle → t.ytab = s.ytab ∧ t.coef = s.coef ∧ t.dmem = s.dmem ∧ t.draws = s.draws) ∧
      (∀ c e, s.phase = .busy c → decode c = .error e → t.ytab = s.ytab ∧ t.coef = s.coef ∧ t.dmem = s.dmem) ∧
      ∀ c i, s.phase = .busy c → decode c = .ok i →
        (∀ j, coefsWritten i s ≤ j → t.coefEntry j = s.coefEntry j) ∧
        (∀ j, valuesWritten i s ≤ j → t.yEntry j = s.yEntry j) ∧
        (∀ a, ¬ WritesDmem i s a → t.readByte a = s.readByte a) ∧
        ∃ coefDraw yDraw byteDraw : Nat → Nat,
          (∀ j, j < coefsWritten i s →
            s.draws ≤ coefDraw j ∧ coefDraw j < t.draws ∧ t.coefEntry j = Config.freeEntry (coefDraw j)) ∧
          (∀ j, j < valuesWritten i s →
            s.draws ≤ yDraw j ∧ yDraw j < t.draws ∧ t.yEntry j = Config.freeEntry (yDraw j)) ∧
          (∀ a, WritesDmem i s a → a < s.params.dmemSize →
            s.draws ≤ byteDraw a ∧ byteDraw a < t.draws ∧ t.readByte a = Config.freeByte (byteDraw a)) ∧
          (∀ j l, j < coefsWritten i s → l < coefsWritten i s → coefDraw j = coefDraw l → j = l) ∧
          (∀ j l, j < valuesWritten i s → l < valuesWritten i s → yDraw j = yDraw l → j = l) ∧
          (∀ j l, j < coefsWritten i s → l < valuesWritten i s → coefDraw j ≠ yDraw l) ∧
          ∀ a b, WritesDmem i s a → a < s.params.dmemSize → WritesDmem i s b → b < s.params.dmemSize →
            byteDraw a = byteDraw b → a = b

/-- A power-on reset, and State.resetWith for every choice of the parameters, have every CSR at its reset value, S = 0, the
phase IDLE and irq = 0; every table entry and DMEM byte reads as an unspecified value, a fresh one after each power-on
(R250, R252). That the value is a free one and not a fault is the model's choice, notes/assumptions/3.md, as is the turn of
its own that a power-on reset has, notes/assumptions/16.md. -/
def Obligations.PowerOnResetValues : Prop :=
  ∀ (u : State), ((∃ p, u = State.resetWith p) ∨
      ∃ s rest, s.schedule = .powerOn :: rest ∧ step s = .next u) →
    u.ie = false ∧ u.status = Status.zero ∧ u.status.word = 0#32 ∧ u.arg0 = 0#32 ∧ u.arg1 = 0#32 ∧ u.arg2 = 0#32 ∧
      u.arg3 = 0#32 ∧ u.res0 = 0#32 ∧ u.cfgK = 0#8 ∧ u.cfgN = 0#8 ∧ u.prng = 0#48 ∧ u.repairs = 0#32 ∧
      u.errinfo = 0#32 ∧ u.phase = .idle ∧ u.irq = false ∧
      (∀ j, u.xEntry j = Config.powerOnXtab u.powerOns j ∧ u.yEntry j = Config.powerOnYtab u.powerOns j ∧
        u.coefEntry j = Config.powerOnCoef u.powerOns j ∧ u.readByte j = Config.powerOnDmem u.powerOns j) ∧
      ∀ s rest, s.schedule = .powerOn :: rest → step s = .next u → u.powerOns = s.powerOns + 1

/-- The interrupt output is the level CTRL.IE ∧ STATUS.DONE: raised by every completion with IE = 1, of a command or of a
word that is none, whether it is an error or not, cleared by a W1C of DONE, by acceptance and by both resets, and masked by IE = 0 (R226, R46). -/
def Obligations.InterruptIsTheLevel : Prop :=
  (∀ s : State, s.irq = (s.ie && s.status.done)) ∧
  (∀ (i : Instr) (s t : State), exec i s = .next t → t.irq = s.ie) ∧
  (∀ (c : Word) (s t : State), s.phase = .busy c → engineStep s = .next t → t.irq = s.ie) ∧
  (∀ (s : State) (w : Word), w.getLsbD 1 = true → (s.busWrite .w32 0x008#32 w).irq = false) ∧
  (∀ (s : State) (w : Word), s.phase = .idle → s.status.err = false → (s.busWrite .w32 0x00C#32 w).irq = false) ∧
  (∀ (s : State) (v : Word), v.getLsbD 1 = true → (s.busWrite .w32 0x004#32 v).irq = false) ∧
  (∀ s : State, s.powerOnReset.irq = false) ∧ (∀ p : Params, (State.resetWith p).irq = false) ∧
  ∀ (s : State) (v : Word), v.getLsbD 0 = false → (s.busWrite .w32 0x004#32 v).irq = false

/-- While ERR = 1 no step overwrites the report: in a coherent state each step keeps ERR, ERRCODE and ERRINFO, or clears all
three (R225). -/
def Obligations.TheFirstReportIsNeverOverwritten : Prop :=
  ∀ s t : State, StatusCoherent s → s.status.err = true → step s = .next t →
    (t.status.err = true ∧ t.status.errcode = s.status.errcode ∧ t.errinfo = s.errinfo) ∨
      (t.status.err = false ∧ t.status.errcode = 0#8 ∧ t.errinfo = 0#32)

/-! ### Invariants -/

/-- Every step keeps STATUS coherent: BUSY = 1 exactly when the phase is BUSY(c); while it is, ERR and DONE are 0; ERRCODE and
ERRINFO are 0 without an error, and ERRCODE is 1 to 5 with one (R45, R26, R220). -/
def Obligations.EveryStepKeepsStatusCoherent : Prop :=
  ∀ s t : State, StatusCoherent s → step s = .next t → StatusCoherent t

/-- Every step keeps the storage coherent: the tables and DMEM stay in canonical form, no table entry lies past 255 and no byte
past DMEM_SIZE; and no step changes the parameters (R49, R61, R66, R74). The canonical form and the parameters as a field
are the model's choices, notes/assumptions/4.md and 1.md. -/
def Obligations.EveryStepKeepsStorageCoherent : Prop :=
  ∀ s t : State, StorageCoherent s → step s = .next t → StorageCoherent t ∧ t.params = s.params

/-- The state after reset is coherent, for every choice of the parameters: STATUS with the phase (R250), and the storage, of
which nothing is listed after reset (R252). The canonical form is the model's choice, notes/assumptions/4.md, as are free values,
not a fault, where nothing is listed, notes/assumptions/3.md, and the parameters as a field, notes/assumptions/1.md. -/
def Obligations.ResetIsCoherent : Prop :=
  ∀ p : Params, StatusCoherent (State.resetWith p) ∧ StorageCoherent (State.resetWith p)
end

