-- ==== Sys2Proof/Laws/Memory.lean ====
section
/-!
SUPPORT. The laws of the one memory form: a read after a write to the same place gives the value written, a write leaves
every other place alone, and a write keeps the canonical form and every bound on the addresses.
-/

namespace Sys2Proof.Machine

@[simp] theorem Memory.find_nil {w : Nat} (a : Nat) : Memory.find ([] : Memory w) a = none := rfl

@[simp] theorem Memory.find_put_same {w : Nat} (m : Memory w) (a : Nat) (v : BitVec w) :
    Memory.find (Memory.put m a v) a = some v := by
  induction m with
  | nil => simp [Memory.put, Memory.find]
  | cons p rest ih =>
    obtain ⟨b, u⟩ := p
    by_cases hlt : a < b
    · simp [Memory.put, Memory.find, hlt]
    · by_cases heq : a = b
      · simp [Memory.put, Memory.find, heq]
      · simp [Memory.put, Memory.find, hlt, heq, ih]

@[simp] theorem Memory.find_put_other {w : Nat} (m : Memory w) {a c : Nat} (v : BitVec w) (h : c ≠ a) :
    Memory.find (Memory.put m a v) c = Memory.find m c := by
  induction m with
  | nil => simp [Memory.put, Memory.find, h]
  | cons p rest ih =>
    obtain ⟨b, u⟩ := p
    by_cases hlt : a < b
    · simp [Memory.put, Memory.find, hlt, h]
    · by_cases heq : a = b
      · subst heq
        simp [Memory.put, Memory.find, h]
      · simp [Memory.put, Memory.find, hlt, heq, ih]

/-- An entry of a written memory is the new entry or an old one. -/
theorem Memory.mem_put {w : Nat} {m : Memory w} {a : Nat} {v : BitVec w} {p : Nat × BitVec w}
    (h : p ∈ Memory.put m a v) : p = (a, v) ∨ p ∈ m := by
  induction m with
  | nil => simpa [Memory.put] using h
  | cons q rest ih =>
    obtain ⟨b, u⟩ := q
    by_cases hlt : a < b
    · simpa [Memory.put, hlt] using h
    · by_cases heq : a = b
      · rw [Memory.put, if_neg hlt, if_pos heq] at h
        rcases List.mem_cons.mp h with h | h
        · exact .inl h
        · exact .inr (List.mem_cons_of_mem _ h)
      · rw [Memory.put, if_neg hlt, if_neg heq] at h
        rcases List.mem_cons.mp h with h | h
        · exact .inr (h ▸ List.mem_cons_self)
        · exact (ih h).imp_right (List.mem_cons_of_mem _)

/-- A write keeps the canonical form. -/
theorem Memory.put_wf {w : Nat} {m : Memory w} (a : Nat) (v : BitVec w) (h : Memory.wf m) :
    Memory.wf (Memory.put m a v) := by
  induction m with
  | nil => simp [Memory.put]
  | cons q rest ih =>
    obtain ⟨b, u⟩ := q
    obtain ⟨hhead, htail⟩ := List.pairwise_cons.mp h
    by_cases hlt : a < b
    · rw [Memory.put, if_pos hlt]
      refine List.pairwise_cons.mpr ⟨fun p hp => ?_, h⟩
      rcases List.mem_cons.mp hp with rfl | hp
      · exact hlt
      · exact Nat.lt_trans hlt (hhead p hp)
    · by_cases heq : a = b
      · rw [Memory.put, if_neg hlt, if_pos heq]
        exact List.pairwise_cons.mpr ⟨fun p hp => heq ▸ hhead p hp, htail⟩
      · rw [Memory.put, if_neg hlt, if_neg heq]
        refine List.pairwise_cons.mpr ⟨fun p hp => ?_, ih htail⟩
        rcases Memory.mem_put hp with rfl | hp
        · show b < a
          omega
        · exact hhead p hp

/-- A write below a bound keeps every address below it. -/
theorem Memory.put_below {w : Nat} {m : Memory w} {a bound : Nat} (v : BitVec w) (ha : a < bound)
    (h : Memory.below m bound) : Memory.below (Memory.put m a v) bound := by
  intro p hp
  rcases Memory.mem_put hp with rfl | hp
  · exact ha
  · exact h p hp

end Sys2Proof.Machine
end

