-- ==== Sys2Proof/Laws/State.lean ====
section
/-!
SUPPORT. One lemma per field per update of State, each true by rfl, so that no later proof unfolds a record update.
-/

namespace Sys2Proof.Machine

/-! ### State.setRes0 -/

@[simp] theorem State.setRes0_params (s : State) (v : Nat) : (s.setRes0 v).params = s.params := rfl
@[simp] theorem State.setRes0_ie (s : State) (v : Nat) : (s.setRes0 v).ie = s.ie := rfl
@[simp] theorem State.setRes0_status (s : State) (v : Nat) : (s.setRes0 v).status = s.status := rfl
@[simp] theorem State.setRes0_arg0 (s : State) (v : Nat) : (s.setRes0 v).arg0 = s.arg0 := rfl
@[simp] theorem State.setRes0_arg1 (s : State) (v : Nat) : (s.setRes0 v).arg1 = s.arg1 := rfl
@[simp] theorem State.setRes0_arg2 (s : State) (v : Nat) : (s.setRes0 v).arg2 = s.arg2 := rfl
@[simp] theorem State.setRes0_arg3 (s : State) (v : Nat) : (s.setRes0 v).arg3 = s.arg3 := rfl
@[simp] theorem State.setRes0_res0 (s : State) (v : Nat) : (s.setRes0 v).res0 = BitVec.ofNat 32 v := rfl
@[simp] theorem State.setRes0_cfgK (s : State) (v : Nat) : (s.setRes0 v).cfgK = s.cfgK := rfl
@[simp] theorem State.setRes0_cfgN (s : State) (v : Nat) : (s.setRes0 v).cfgN = s.cfgN := rfl
@[simp] theorem State.setRes0_prng (s : State) (v : Nat) : (s.setRes0 v).prng = s.prng := rfl
@[simp] theorem State.setRes0_repairs (s : State) (v : Nat) : (s.setRes0 v).repairs = s.repairs := rfl
@[simp] theorem State.setRes0_errinfo (s : State) (v : Nat) : (s.setRes0 v).errinfo = s.errinfo := rfl
@[simp] theorem State.setRes0_xtab (s : State) (v : Nat) : (s.setRes0 v).xtab = s.xtab := rfl
@[simp] theorem State.setRes0_ytab (s : State) (v : Nat) : (s.setRes0 v).ytab = s.ytab := rfl
@[simp] theorem State.setRes0_coef (s : State) (v : Nat) : (s.setRes0 v).coef = s.coef := rfl
@[simp] theorem State.setRes0_dmem (s : State) (v : Nat) : (s.setRes0 v).dmem = s.dmem := rfl
@[simp] theorem State.setRes0_phase (s : State) (v : Nat) : (s.setRes0 v).phase = s.phase := rfl
@[simp] theorem State.setRes0_powerOns (s : State) (v : Nat) : (s.setRes0 v).powerOns = s.powerOns := rfl
@[simp] theorem State.setRes0_draws (s : State) (v : Nat) : (s.setRes0 v).draws = s.draws := rfl
@[simp] theorem State.setRes0_host (s : State) (v : Nat) : (s.setRes0 v).host = s.host := rfl
@[simp] theorem State.setRes0_schedule (s : State) (v : Nat) : (s.setRes0 v).schedule = s.schedule := rfl

/-! ### State.setPrng -/

@[simp] theorem State.setPrng_params (s : State) (v : PrngState) : (s.setPrng v).params = s.params := rfl
@[simp] theorem State.setPrng_ie (s : State) (v : PrngState) : (s.setPrng v).ie = s.ie := rfl
@[simp] theorem State.setPrng_status (s : State) (v : PrngState) : (s.setPrng v).status = s.status := rfl
@[simp] theorem State.setPrng_arg0 (s : State) (v : PrngState) : (s.setPrng v).arg0 = s.arg0 := rfl
@[simp] theorem State.setPrng_arg1 (s : State) (v : PrngState) : (s.setPrng v).arg1 = s.arg1 := rfl
@[simp] theorem State.setPrng_arg2 (s : State) (v : PrngState) : (s.setPrng v).arg2 = s.arg2 := rfl
@[simp] theorem State.setPrng_arg3 (s : State) (v : PrngState) : (s.setPrng v).arg3 = s.arg3 := rfl
@[simp] theorem State.setPrng_res0 (s : State) (v : PrngState) : (s.setPrng v).res0 = s.res0 := rfl
@[simp] theorem State.setPrng_cfgK (s : State) (v : PrngState) : (s.setPrng v).cfgK = s.cfgK := rfl
@[simp] theorem State.setPrng_cfgN (s : State) (v : PrngState) : (s.setPrng v).cfgN = s.cfgN := rfl
@[simp] theorem State.setPrng_prng (s : State) (v : PrngState) : (s.setPrng v).prng = v := rfl
@[simp] theorem State.setPrng_repairs (s : State) (v : PrngState) : (s.setPrng v).repairs = s.repairs := rfl
@[simp] theorem State.setPrng_errinfo (s : State) (v : PrngState) : (s.setPrng v).errinfo = s.errinfo := rfl
@[simp] theorem State.setPrng_xtab (s : State) (v : PrngState) : (s.setPrng v).xtab = s.xtab := rfl
@[simp] theorem State.setPrng_ytab (s : State) (v : PrngState) : (s.setPrng v).ytab = s.ytab := rfl
@[simp] theorem State.setPrng_coef (s : State) (v : PrngState) : (s.setPrng v).coef = s.coef := rfl
@[simp] theorem State.setPrng_dmem (s : State) (v : PrngState) : (s.setPrng v).dmem = s.dmem := rfl
@[simp] theorem State.setPrng_phase (s : State) (v : PrngState) : (s.setPrng v).phase = s.phase := rfl
@[simp] theorem State.setPrng_powerOns (s : State) (v : PrngState) : (s.setPrng v).powerOns = s.powerOns := rfl
@[simp] theorem State.setPrng_draws (s : State) (v : PrngState) : (s.setPrng v).draws = s.draws := rfl
@[simp] theorem State.setPrng_host (s : State) (v : PrngState) : (s.setPrng v).host = s.host := rfl
@[simp] theorem State.setPrng_schedule (s : State) (v : PrngState) : (s.setPrng v).schedule = s.schedule := rfl

/-! ### State.setRepairs -/

@[simp] theorem State.setRepairs_params (s : State) (r : Nat) : (s.setRepairs r).params = s.params := rfl
@[simp] theorem State.setRepairs_ie (s : State) (r : Nat) : (s.setRepairs r).ie = s.ie := rfl
@[simp] theorem State.setRepairs_status (s : State) (r : Nat) : (s.setRepairs r).status = s.status := rfl
@[simp] theorem State.setRepairs_arg0 (s : State) (r : Nat) : (s.setRepairs r).arg0 = s.arg0 := rfl
@[simp] theorem State.setRepairs_arg1 (s : State) (r : Nat) : (s.setRepairs r).arg1 = s.arg1 := rfl
@[simp] theorem State.setRepairs_arg2 (s : State) (r : Nat) : (s.setRepairs r).arg2 = s.arg2 := rfl
@[simp] theorem State.setRepairs_arg3 (s : State) (r : Nat) : (s.setRepairs r).arg3 = s.arg3 := rfl
@[simp] theorem State.setRepairs_res0 (s : State) (r : Nat) : (s.setRepairs r).res0 = s.res0 := rfl
@[simp] theorem State.setRepairs_cfgK (s : State) (r : Nat) : (s.setRepairs r).cfgK = s.cfgK := rfl
@[simp] theorem State.setRepairs_cfgN (s : State) (r : Nat) : (s.setRepairs r).cfgN = s.cfgN := rfl
@[simp] theorem State.setRepairs_prng (s : State) (r : Nat) : (s.setRepairs r).prng = s.prng := rfl
@[simp] theorem State.setRepairs_repairs (s : State) (r : Nat) : (s.setRepairs r).repairs = BitVec.ofNat 32 (min r Config.repairsMax) := rfl
@[simp] theorem State.setRepairs_errinfo (s : State) (r : Nat) : (s.setRepairs r).errinfo = s.errinfo := rfl
@[simp] theorem State.setRepairs_xtab (s : State) (r : Nat) : (s.setRepairs r).xtab = s.xtab := rfl
@[simp] theorem State.setRepairs_ytab (s : State) (r : Nat) : (s.setRepairs r).ytab = s.ytab := rfl
@[simp] theorem State.setRepairs_coef (s : State) (r : Nat) : (s.setRepairs r).coef = s.coef := rfl
@[simp] theorem State.setRepairs_dmem (s : State) (r : Nat) : (s.setRepairs r).dmem = s.dmem := rfl
@[simp] theorem State.setRepairs_phase (s : State) (r : Nat) : (s.setRepairs r).phase = s.phase := rfl
@[simp] theorem State.setRepairs_powerOns (s : State) (r : Nat) : (s.setRepairs r).powerOns = s.powerOns := rfl
@[simp] theorem State.setRepairs_draws (s : State) (r : Nat) : (s.setRepairs r).draws = s.draws := rfl
@[simp] theorem State.setRepairs_host (s : State) (r : Nat) : (s.setRepairs r).host = s.host := rfl
@[simp] theorem State.setRepairs_schedule (s : State) (r : Nat) : (s.setRepairs r).schedule = s.schedule := rfl

/-! ### State.setX -/

@[simp] theorem State.setX_params (s : State) (j : Nat) (v : Byte) : (s.setX j v).params = s.params := rfl
@[simp] theorem State.setX_ie (s : State) (j : Nat) (v : Byte) : (s.setX j v).ie = s.ie := rfl
@[simp] theorem State.setX_status (s : State) (j : Nat) (v : Byte) : (s.setX j v).status = s.status := rfl
@[simp] theorem State.setX_arg0 (s : State) (j : Nat) (v : Byte) : (s.setX j v).arg0 = s.arg0 := rfl
@[simp] theorem State.setX_arg1 (s : State) (j : Nat) (v : Byte) : (s.setX j v).arg1 = s.arg1 := rfl
@[simp] theorem State.setX_arg2 (s : State) (j : Nat) (v : Byte) : (s.setX j v).arg2 = s.arg2 := rfl
@[simp] theorem State.setX_arg3 (s : State) (j : Nat) (v : Byte) : (s.setX j v).arg3 = s.arg3 := rfl
@[simp] theorem State.setX_res0 (s : State) (j : Nat) (v : Byte) : (s.setX j v).res0 = s.res0 := rfl
@[simp] theorem State.setX_cfgK (s : State) (j : Nat) (v : Byte) : (s.setX j v).cfgK = s.cfgK := rfl
@[simp] theorem State.setX_cfgN (s : State) (j : Nat) (v : Byte) : (s.setX j v).cfgN = s.cfgN := rfl
@[simp] theorem State.setX_prng (s : State) (j : Nat) (v : Byte) : (s.setX j v).prng = s.prng := rfl
@[simp] theorem State.setX_repairs (s : State) (j : Nat) (v : Byte) : (s.setX j v).repairs = s.repairs := rfl
@[simp] theorem State.setX_errinfo (s : State) (j : Nat) (v : Byte) : (s.setX j v).errinfo = s.errinfo := rfl
@[simp] theorem State.setX_xtab (s : State) (j : Nat) (v : Byte) : (s.setX j v).xtab = Memory.put s.xtab j v := rfl
@[simp] theorem State.setX_ytab (s : State) (j : Nat) (v : Byte) : (s.setX j v).ytab = s.ytab := rfl
@[simp] theorem State.setX_coef (s : State) (j : Nat) (v : Byte) : (s.setX j v).coef = s.coef := rfl
@[simp] theorem State.setX_dmem (s : State) (j : Nat) (v : Byte) : (s.setX j v).dmem = s.dmem := rfl
@[simp] theorem State.setX_phase (s : State) (j : Nat) (v : Byte) : (s.setX j v).phase = s.phase := rfl
@[simp] theorem State.setX_powerOns (s : State) (j : Nat) (v : Byte) : (s.setX j v).powerOns = s.powerOns := rfl
@[simp] theorem State.setX_draws (s : State) (j : Nat) (v : Byte) : (s.setX j v).draws = s.draws := rfl
@[simp] theorem State.setX_host (s : State) (j : Nat) (v : Byte) : (s.setX j v).host = s.host := rfl
@[simp] theorem State.setX_schedule (s : State) (j : Nat) (v : Byte) : (s.setX j v).schedule = s.schedule := rfl

/-! ### State.setY -/

@[simp] theorem State.setY_params (s : State) (j : Nat) (v : Entry) : (s.setY j v).params = s.params := rfl
@[simp] theorem State.setY_ie (s : State) (j : Nat) (v : Entry) : (s.setY j v).ie = s.ie := rfl
@[simp] theorem State.setY_status (s : State) (j : Nat) (v : Entry) : (s.setY j v).status = s.status := rfl
@[simp] theorem State.setY_arg0 (s : State) (j : Nat) (v : Entry) : (s.setY j v).arg0 = s.arg0 := rfl
@[simp] theorem State.setY_arg1 (s : State) (j : Nat) (v : Entry) : (s.setY j v).arg1 = s.arg1 := rfl
@[simp] theorem State.setY_arg2 (s : State) (j : Nat) (v : Entry) : (s.setY j v).arg2 = s.arg2 := rfl
@[simp] theorem State.setY_arg3 (s : State) (j : Nat) (v : Entry) : (s.setY j v).arg3 = s.arg3 := rfl
@[simp] theorem State.setY_res0 (s : State) (j : Nat) (v : Entry) : (s.setY j v).res0 = s.res0 := rfl
@[simp] theorem State.setY_cfgK (s : State) (j : Nat) (v : Entry) : (s.setY j v).cfgK = s.cfgK := rfl
@[simp] theorem State.setY_cfgN (s : State) (j : Nat) (v : Entry) : (s.setY j v).cfgN = s.cfgN := rfl
@[simp] theorem State.setY_prng (s : State) (j : Nat) (v : Entry) : (s.setY j v).prng = s.prng := rfl
@[simp] theorem State.setY_repairs (s : State) (j : Nat) (v : Entry) : (s.setY j v).repairs = s.repairs := rfl
@[simp] theorem State.setY_errinfo (s : State) (j : Nat) (v : Entry) : (s.setY j v).errinfo = s.errinfo := rfl
@[simp] theorem State.setY_xtab (s : State) (j : Nat) (v : Entry) : (s.setY j v).xtab = s.xtab := rfl
@[simp] theorem State.setY_ytab (s : State) (j : Nat) (v : Entry) : (s.setY j v).ytab = Memory.put s.ytab j v := rfl
@[simp] theorem State.setY_coef (s : State) (j : Nat) (v : Entry) : (s.setY j v).coef = s.coef := rfl
@[simp] theorem State.setY_dmem (s : State) (j : Nat) (v : Entry) : (s.setY j v).dmem = s.dmem := rfl
@[simp] theorem State.setY_phase (s : State) (j : Nat) (v : Entry) : (s.setY j v).phase = s.phase := rfl
@[simp] theorem State.setY_powerOns (s : State) (j : Nat) (v : Entry) : (s.setY j v).powerOns = s.powerOns := rfl
@[simp] theorem State.setY_draws (s : State) (j : Nat) (v : Entry) : (s.setY j v).draws = s.draws := rfl
@[simp] theorem State.setY_host (s : State) (j : Nat) (v : Entry) : (s.setY j v).host = s.host := rfl
@[simp] theorem State.setY_schedule (s : State) (j : Nat) (v : Entry) : (s.setY j v).schedule = s.schedule := rfl

/-! ### State.setCoef -/

@[simp] theorem State.setCoef_params (s : State) (j : Nat) (v : Entry) : (s.setCoef j v).params = s.params := rfl
@[simp] theorem State.setCoef_ie (s : State) (j : Nat) (v : Entry) : (s.setCoef j v).ie = s.ie := rfl
@[simp] theorem State.setCoef_status (s : State) (j : Nat) (v : Entry) : (s.setCoef j v).status = s.status := rfl
@[simp] theorem State.setCoef_arg0 (s : State) (j : Nat) (v : Entry) : (s.setCoef j v).arg0 = s.arg0 := rfl
@[simp] theorem State.setCoef_arg1 (s : State) (j : Nat) (v : Entry) : (s.setCoef j v).arg1 = s.arg1 := rfl
@[simp] theorem State.setCoef_arg2 (s : State) (j : Nat) (v : Entry) : (s.setCoef j v).arg2 = s.arg2 := rfl
@[simp] theorem State.setCoef_arg3 (s : State) (j : Nat) (v : Entry) : (s.setCoef j v).arg3 = s.arg3 := rfl
@[simp] theorem State.setCoef_res0 (s : State) (j : Nat) (v : Entry) : (s.setCoef j v).res0 = s.res0 := rfl
@[simp] theorem State.setCoef_cfgK (s : State) (j : Nat) (v : Entry) : (s.setCoef j v).cfgK = s.cfgK := rfl
@[simp] theorem State.setCoef_cfgN (s : State) (j : Nat) (v : Entry) : (s.setCoef j v).cfgN = s.cfgN := rfl
@[simp] theorem State.setCoef_prng (s : State) (j : Nat) (v : Entry) : (s.setCoef j v).prng = s.prng := rfl
@[simp] theorem State.setCoef_repairs (s : State) (j : Nat) (v : Entry) : (s.setCoef j v).repairs = s.repairs := rfl
@[simp] theorem State.setCoef_errinfo (s : State) (j : Nat) (v : Entry) : (s.setCoef j v).errinfo = s.errinfo := rfl
@[simp] theorem State.setCoef_xtab (s : State) (j : Nat) (v : Entry) : (s.setCoef j v).xtab = s.xtab := rfl
@[simp] theorem State.setCoef_ytab (s : State) (j : Nat) (v : Entry) : (s.setCoef j v).ytab = s.ytab := rfl
@[simp] theorem State.setCoef_coef (s : State) (j : Nat) (v : Entry) : (s.setCoef j v).coef = Memory.put s.coef j v := rfl
@[simp] theorem State.setCoef_dmem (s : State) (j : Nat) (v : Entry) : (s.setCoef j v).dmem = s.dmem := rfl
@[simp] theorem State.setCoef_phase (s : State) (j : Nat) (v : Entry) : (s.setCoef j v).phase = s.phase := rfl
@[simp] theorem State.setCoef_powerOns (s : State) (j : Nat) (v : Entry) : (s.setCoef j v).powerOns = s.powerOns := rfl
@[simp] theorem State.setCoef_draws (s : State) (j : Nat) (v : Entry) : (s.setCoef j v).draws = s.draws := rfl
@[simp] theorem State.setCoef_host (s : State) (j : Nat) (v : Entry) : (s.setCoef j v).host = s.host := rfl
@[simp] theorem State.setCoef_schedule (s : State) (j : Nat) (v : Entry) : (s.setCoef j v).schedule = s.schedule := rfl

/-! ### State.writeByte -/

@[simp] theorem State.writeByte_params (s : State) (a : Nat) (v : Byte) : (s.writeByte a v).params = s.params := rfl
@[simp] theorem State.writeByte_ie (s : State) (a : Nat) (v : Byte) : (s.writeByte a v).ie = s.ie := rfl
@[simp] theorem State.writeByte_status (s : State) (a : Nat) (v : Byte) : (s.writeByte a v).status = s.status := rfl
@[simp] theorem State.writeByte_arg0 (s : State) (a : Nat) (v : Byte) : (s.writeByte a v).arg0 = s.arg0 := rfl
@[simp] theorem State.writeByte_arg1 (s : State) (a : Nat) (v : Byte) : (s.writeByte a v).arg1 = s.arg1 := rfl
@[simp] theorem State.writeByte_arg2 (s : State) (a : Nat) (v : Byte) : (s.writeByte a v).arg2 = s.arg2 := rfl
@[simp] theorem State.writeByte_arg3 (s : State) (a : Nat) (v : Byte) : (s.writeByte a v).arg3 = s.arg3 := rfl
@[simp] theorem State.writeByte_res0 (s : State) (a : Nat) (v : Byte) : (s.writeByte a v).res0 = s.res0 := rfl
@[simp] theorem State.writeByte_cfgK (s : State) (a : Nat) (v : Byte) : (s.writeByte a v).cfgK = s.cfgK := rfl
@[simp] theorem State.writeByte_cfgN (s : State) (a : Nat) (v : Byte) : (s.writeByte a v).cfgN = s.cfgN := rfl
@[simp] theorem State.writeByte_prng (s : State) (a : Nat) (v : Byte) : (s.writeByte a v).prng = s.prng := rfl
@[simp] theorem State.writeByte_repairs (s : State) (a : Nat) (v : Byte) : (s.writeByte a v).repairs = s.repairs := rfl
@[simp] theorem State.writeByte_errinfo (s : State) (a : Nat) (v : Byte) : (s.writeByte a v).errinfo = s.errinfo := rfl
@[simp] theorem State.writeByte_xtab (s : State) (a : Nat) (v : Byte) : (s.writeByte a v).xtab = s.xtab := rfl
@[simp] theorem State.writeByte_ytab (s : State) (a : Nat) (v : Byte) : (s.writeByte a v).ytab = s.ytab := rfl
@[simp] theorem State.writeByte_coef (s : State) (a : Nat) (v : Byte) : (s.writeByte a v).coef = s.coef := rfl
@[simp] theorem State.writeByte_dmem (s : State) (a : Nat) (v : Byte) : (s.writeByte a v).dmem = Memory.put s.dmem a v := rfl
@[simp] theorem State.writeByte_phase (s : State) (a : Nat) (v : Byte) : (s.writeByte a v).phase = s.phase := rfl
@[simp] theorem State.writeByte_powerOns (s : State) (a : Nat) (v : Byte) : (s.writeByte a v).powerOns = s.powerOns := rfl
@[simp] theorem State.writeByte_draws (s : State) (a : Nat) (v : Byte) : (s.writeByte a v).draws = s.draws := rfl
@[simp] theorem State.writeByte_host (s : State) (a : Nat) (v : Byte) : (s.writeByte a v).host = s.host := rfl
@[simp] theorem State.writeByte_schedule (s : State) (a : Nat) (v : Byte) : (s.writeByte a v).schedule = s.schedule := rfl

/-! ### State.flagRepairs -/

@[simp] theorem State.flagRepairs_params (s : State) (r : Nat) : (s.flagRepairs r).params = s.params := rfl
@[simp] theorem State.flagRepairs_ie (s : State) (r : Nat) : (s.flagRepairs r).ie = s.ie := rfl
@[simp] theorem State.flagRepairs_status (s : State) (r : Nat) : (s.flagRepairs r).status = { s.status with rpr := s.status.rpr || decide (0 < r) } := rfl
@[simp] theorem State.flagRepairs_arg0 (s : State) (r : Nat) : (s.flagRepairs r).arg0 = s.arg0 := rfl
@[simp] theorem State.flagRepairs_arg1 (s : State) (r : Nat) : (s.flagRepairs r).arg1 = s.arg1 := rfl
@[simp] theorem State.flagRepairs_arg2 (s : State) (r : Nat) : (s.flagRepairs r).arg2 = s.arg2 := rfl
@[simp] theorem State.flagRepairs_arg3 (s : State) (r : Nat) : (s.flagRepairs r).arg3 = s.arg3 := rfl
@[simp] theorem State.flagRepairs_res0 (s : State) (r : Nat) : (s.flagRepairs r).res0 = s.res0 := rfl
@[simp] theorem State.flagRepairs_cfgK (s : State) (r : Nat) : (s.flagRepairs r).cfgK = s.cfgK := rfl
@[simp] theorem State.flagRepairs_cfgN (s : State) (r : Nat) : (s.flagRepairs r).cfgN = s.cfgN := rfl
@[simp] theorem State.flagRepairs_prng (s : State) (r : Nat) : (s.flagRepairs r).prng = s.prng := rfl
@[simp] theorem State.flagRepairs_repairs (s : State) (r : Nat) : (s.flagRepairs r).repairs = s.repairs := rfl
@[simp] theorem State.flagRepairs_errinfo (s : State) (r : Nat) : (s.flagRepairs r).errinfo = s.errinfo := rfl
@[simp] theorem State.flagRepairs_xtab (s : State) (r : Nat) : (s.flagRepairs r).xtab = s.xtab := rfl
@[simp] theorem State.flagRepairs_ytab (s : State) (r : Nat) : (s.flagRepairs r).ytab = s.ytab := rfl
@[simp] theorem State.flagRepairs_coef (s : State) (r : Nat) : (s.flagRepairs r).coef = s.coef := rfl
@[simp] theorem State.flagRepairs_dmem (s : State) (r : Nat) : (s.flagRepairs r).dmem = s.dmem := rfl
@[simp] theorem State.flagRepairs_phase (s : State) (r : Nat) : (s.flagRepairs r).phase = s.phase := rfl
@[simp] theorem State.flagRepairs_powerOns (s : State) (r : Nat) : (s.flagRepairs r).powerOns = s.powerOns := rfl
@[simp] theorem State.flagRepairs_draws (s : State) (r : Nat) : (s.flagRepairs r).draws = s.draws := rfl
@[simp] theorem State.flagRepairs_host (s : State) (r : Nat) : (s.flagRepairs r).host = s.host := rfl
@[simp] theorem State.flagRepairs_schedule (s : State) (r : Nat) : (s.flagRepairs r).schedule = s.schedule := rfl

/-! ### State.flagWrap -/

@[simp] theorem State.flagWrap_params (s : State) (b : Bool) : (s.flagWrap b).params = s.params := rfl
@[simp] theorem State.flagWrap_ie (s : State) (b : Bool) : (s.flagWrap b).ie = s.ie := rfl
@[simp] theorem State.flagWrap_status (s : State) (b : Bool) : (s.flagWrap b).status = { s.status with wrap := s.status.wrap || b } := rfl
@[simp] theorem State.flagWrap_arg0 (s : State) (b : Bool) : (s.flagWrap b).arg0 = s.arg0 := rfl
@[simp] theorem State.flagWrap_arg1 (s : State) (b : Bool) : (s.flagWrap b).arg1 = s.arg1 := rfl
@[simp] theorem State.flagWrap_arg2 (s : State) (b : Bool) : (s.flagWrap b).arg2 = s.arg2 := rfl
@[simp] theorem State.flagWrap_arg3 (s : State) (b : Bool) : (s.flagWrap b).arg3 = s.arg3 := rfl
@[simp] theorem State.flagWrap_res0 (s : State) (b : Bool) : (s.flagWrap b).res0 = s.res0 := rfl
@[simp] theorem State.flagWrap_cfgK (s : State) (b : Bool) : (s.flagWrap b).cfgK = s.cfgK := rfl
@[simp] theorem State.flagWrap_cfgN (s : State) (b : Bool) : (s.flagWrap b).cfgN = s.cfgN := rfl
@[simp] theorem State.flagWrap_prng (s : State) (b : Bool) : (s.flagWrap b).prng = s.prng := rfl
@[simp] theorem State.flagWrap_repairs (s : State) (b : Bool) : (s.flagWrap b).repairs = s.repairs := rfl
@[simp] theorem State.flagWrap_errinfo (s : State) (b : Bool) : (s.flagWrap b).errinfo = s.errinfo := rfl
@[simp] theorem State.flagWrap_xtab (s : State) (b : Bool) : (s.flagWrap b).xtab = s.xtab := rfl
@[simp] theorem State.flagWrap_ytab (s : State) (b : Bool) : (s.flagWrap b).ytab = s.ytab := rfl
@[simp] theorem State.flagWrap_coef (s : State) (b : Bool) : (s.flagWrap b).coef = s.coef := rfl
@[simp] theorem State.flagWrap_dmem (s : State) (b : Bool) : (s.flagWrap b).dmem = s.dmem := rfl
@[simp] theorem State.flagWrap_phase (s : State) (b : Bool) : (s.flagWrap b).phase = s.phase := rfl
@[simp] theorem State.flagWrap_powerOns (s : State) (b : Bool) : (s.flagWrap b).powerOns = s.powerOns := rfl
@[simp] theorem State.flagWrap_draws (s : State) (b : Bool) : (s.flagWrap b).draws = s.draws := rfl
@[simp] theorem State.flagWrap_host (s : State) (b : Bool) : (s.flagWrap b).host = s.host := rfl
@[simp] theorem State.flagWrap_schedule (s : State) (b : Bool) : (s.flagWrap b).schedule = s.schedule := rfl

/-! ### State.flagDrop -/

@[simp] theorem State.flagDrop_params (s : State) : s.flagDrop.params = s.params := rfl
@[simp] theorem State.flagDrop_ie (s : State) : s.flagDrop.ie = s.ie := rfl
@[simp] theorem State.flagDrop_status (s : State) : s.flagDrop.status = { s.status with drop := true } := rfl
@[simp] theorem State.flagDrop_arg0 (s : State) : s.flagDrop.arg0 = s.arg0 := rfl
@[simp] theorem State.flagDrop_arg1 (s : State) : s.flagDrop.arg1 = s.arg1 := rfl
@[simp] theorem State.flagDrop_arg2 (s : State) : s.flagDrop.arg2 = s.arg2 := rfl
@[simp] theorem State.flagDrop_arg3 (s : State) : s.flagDrop.arg3 = s.arg3 := rfl
@[simp] theorem State.flagDrop_res0 (s : State) : s.flagDrop.res0 = s.res0 := rfl
@[simp] theorem State.flagDrop_cfgK (s : State) : s.flagDrop.cfgK = s.cfgK := rfl
@[simp] theorem State.flagDrop_cfgN (s : State) : s.flagDrop.cfgN = s.cfgN := rfl
@[simp] theorem State.flagDrop_prng (s : State) : s.flagDrop.prng = s.prng := rfl
@[simp] theorem State.flagDrop_repairs (s : State) : s.flagDrop.repairs = s.repairs := rfl
@[simp] theorem State.flagDrop_errinfo (s : State) : s.flagDrop.errinfo = s.errinfo := rfl
@[simp] theorem State.flagDrop_xtab (s : State) : s.flagDrop.xtab = s.xtab := rfl
@[simp] theorem State.flagDrop_ytab (s : State) : s.flagDrop.ytab = s.ytab := rfl
@[simp] theorem State.flagDrop_coef (s : State) : s.flagDrop.coef = s.coef := rfl
@[simp] theorem State.flagDrop_dmem (s : State) : s.flagDrop.dmem = s.dmem := rfl
@[simp] theorem State.flagDrop_phase (s : State) : s.flagDrop.phase = s.phase := rfl
@[simp] theorem State.flagDrop_powerOns (s : State) : s.flagDrop.powerOns = s.powerOns := rfl
@[simp] theorem State.flagDrop_draws (s : State) : s.flagDrop.draws = s.draws := rfl
@[simp] theorem State.flagDrop_host (s : State) : s.flagDrop.host = s.host := rfl
@[simp] theorem State.flagDrop_schedule (s : State) : s.flagDrop.schedule = s.schedule := rfl

/-! ### State.flagHazard -/

@[simp] theorem State.flagHazard_params (s : State) : s.flagHazard.params = s.params := rfl
@[simp] theorem State.flagHazard_ie (s : State) : s.flagHazard.ie = s.ie := rfl
@[simp] theorem State.flagHazard_status (s : State) : s.flagHazard.status = { s.status with hzd := true } := rfl
@[simp] theorem State.flagHazard_arg0 (s : State) : s.flagHazard.arg0 = s.arg0 := rfl
@[simp] theorem State.flagHazard_arg1 (s : State) : s.flagHazard.arg1 = s.arg1 := rfl
@[simp] theorem State.flagHazard_arg2 (s : State) : s.flagHazard.arg2 = s.arg2 := rfl
@[simp] theorem State.flagHazard_arg3 (s : State) : s.flagHazard.arg3 = s.arg3 := rfl
@[simp] theorem State.flagHazard_res0 (s : State) : s.flagHazard.res0 = s.res0 := rfl
@[simp] theorem State.flagHazard_cfgK (s : State) : s.flagHazard.cfgK = s.cfgK := rfl
@[simp] theorem State.flagHazard_cfgN (s : State) : s.flagHazard.cfgN = s.cfgN := rfl
@[simp] theorem State.flagHazard_prng (s : State) : s.flagHazard.prng = s.prng := rfl
@[simp] theorem State.flagHazard_repairs (s : State) : s.flagHazard.repairs = s.repairs := rfl
@[simp] theorem State.flagHazard_errinfo (s : State) : s.flagHazard.errinfo = s.errinfo := rfl
@[simp] theorem State.flagHazard_xtab (s : State) : s.flagHazard.xtab = s.xtab := rfl
@[simp] theorem State.flagHazard_ytab (s : State) : s.flagHazard.ytab = s.ytab := rfl
@[simp] theorem State.flagHazard_coef (s : State) : s.flagHazard.coef = s.coef := rfl
@[simp] theorem State.flagHazard_dmem (s : State) : s.flagHazard.dmem = s.dmem := rfl
@[simp] theorem State.flagHazard_phase (s : State) : s.flagHazard.phase = s.phase := rfl
@[simp] theorem State.flagHazard_powerOns (s : State) : s.flagHazard.powerOns = s.powerOns := rfl
@[simp] theorem State.flagHazard_draws (s : State) : s.flagHazard.draws = s.draws := rfl
@[simp] theorem State.flagHazard_host (s : State) : s.flagHazard.host = s.host := rfl
@[simp] theorem State.flagHazard_schedule (s : State) : s.flagHazard.schedule = s.schedule := rfl

/-! ### State.flagAccess -/

@[simp] theorem State.flagAccess_params (s : State) : s.flagAccess.params = s.params := rfl
@[simp] theorem State.flagAccess_ie (s : State) : s.flagAccess.ie = s.ie := rfl
@[simp] theorem State.flagAccess_status (s : State) : s.flagAccess.status = { s.status with accerr := true } := rfl
@[simp] theorem State.flagAccess_arg0 (s : State) : s.flagAccess.arg0 = s.arg0 := rfl
@[simp] theorem State.flagAccess_arg1 (s : State) : s.flagAccess.arg1 = s.arg1 := rfl
@[simp] theorem State.flagAccess_arg2 (s : State) : s.flagAccess.arg2 = s.arg2 := rfl
@[simp] theorem State.flagAccess_arg3 (s : State) : s.flagAccess.arg3 = s.arg3 := rfl
@[simp] theorem State.flagAccess_res0 (s : State) : s.flagAccess.res0 = s.res0 := rfl
@[simp] theorem State.flagAccess_cfgK (s : State) : s.flagAccess.cfgK = s.cfgK := rfl
@[simp] theorem State.flagAccess_cfgN (s : State) : s.flagAccess.cfgN = s.cfgN := rfl
@[simp] theorem State.flagAccess_prng (s : State) : s.flagAccess.prng = s.prng := rfl
@[simp] theorem State.flagAccess_repairs (s : State) : s.flagAccess.repairs = s.repairs := rfl
@[simp] theorem State.flagAccess_errinfo (s : State) : s.flagAccess.errinfo = s.errinfo := rfl
@[simp] theorem State.flagAccess_xtab (s : State) : s.flagAccess.xtab = s.xtab := rfl
@[simp] theorem State.flagAccess_ytab (s : State) : s.flagAccess.ytab = s.ytab := rfl
@[simp] theorem State.flagAccess_coef (s : State) : s.flagAccess.coef = s.coef := rfl
@[simp] theorem State.flagAccess_dmem (s : State) : s.flagAccess.dmem = s.dmem := rfl
@[simp] theorem State.flagAccess_phase (s : State) : s.flagAccess.phase = s.phase := rfl
@[simp] theorem State.flagAccess_powerOns (s : State) : s.flagAccess.powerOns = s.powerOns := rfl
@[simp] theorem State.flagAccess_draws (s : State) : s.flagAccess.draws = s.draws := rfl
@[simp] theorem State.flagAccess_host (s : State) : s.flagAccess.host = s.host := rfl
@[simp] theorem State.flagAccess_schedule (s : State) : s.flagAccess.schedule = s.schedule := rfl

/-! ### State.writeStatus -/

@[simp] theorem State.writeStatus_params (s : State) (w : Word) : (s.writeStatus w).params = s.params := rfl
@[simp] theorem State.writeStatus_ie (s : State) (w : Word) : (s.writeStatus w).ie = s.ie := rfl
@[simp] theorem State.writeStatus_status (s : State) (w : Word) : (s.writeStatus w).status = s.status.writeOneToClear w := rfl
@[simp] theorem State.writeStatus_arg0 (s : State) (w : Word) : (s.writeStatus w).arg0 = s.arg0 := rfl
@[simp] theorem State.writeStatus_arg1 (s : State) (w : Word) : (s.writeStatus w).arg1 = s.arg1 := rfl
@[simp] theorem State.writeStatus_arg2 (s : State) (w : Word) : (s.writeStatus w).arg2 = s.arg2 := rfl
@[simp] theorem State.writeStatus_arg3 (s : State) (w : Word) : (s.writeStatus w).arg3 = s.arg3 := rfl
@[simp] theorem State.writeStatus_res0 (s : State) (w : Word) : (s.writeStatus w).res0 = s.res0 := rfl
@[simp] theorem State.writeStatus_cfgK (s : State) (w : Word) : (s.writeStatus w).cfgK = s.cfgK := rfl
@[simp] theorem State.writeStatus_cfgN (s : State) (w : Word) : (s.writeStatus w).cfgN = s.cfgN := rfl
@[simp] theorem State.writeStatus_prng (s : State) (w : Word) : (s.writeStatus w).prng = s.prng := rfl
@[simp] theorem State.writeStatus_repairs (s : State) (w : Word) : (s.writeStatus w).repairs = s.repairs := rfl
@[simp] theorem State.writeStatus_errinfo (s : State) (w : Word) : (s.writeStatus w).errinfo = if w.getLsbD 2 then 0#32 else s.errinfo := rfl
@[simp] theorem State.writeStatus_xtab (s : State) (w : Word) : (s.writeStatus w).xtab = s.xtab := rfl
@[simp] theorem State.writeStatus_ytab (s : State) (w : Word) : (s.writeStatus w).ytab = s.ytab := rfl
@[simp] theorem State.writeStatus_coef (s : State) (w : Word) : (s.writeStatus w).coef = s.coef := rfl
@[simp] theorem State.writeStatus_dmem (s : State) (w : Word) : (s.writeStatus w).dmem = s.dmem := rfl
@[simp] theorem State.writeStatus_phase (s : State) (w : Word) : (s.writeStatus w).phase = s.phase := rfl
@[simp] theorem State.writeStatus_powerOns (s : State) (w : Word) : (s.writeStatus w).powerOns = s.powerOns := rfl
@[simp] theorem State.writeStatus_draws (s : State) (w : Word) : (s.writeStatus w).draws = s.draws := rfl
@[simp] theorem State.writeStatus_host (s : State) (w : Word) : (s.writeStatus w).host = s.host := rfl
@[simp] theorem State.writeStatus_schedule (s : State) (w : Word) : (s.writeStatus w).schedule = s.schedule := rfl

/-! ### State.complete -/

@[simp] theorem State.complete_params (s : State) : s.complete.params = s.params := rfl
@[simp] theorem State.complete_ie (s : State) : s.complete.ie = s.ie := rfl
@[simp] theorem State.complete_status (s : State) : s.complete.status = { s.status with busy := false, done := true } := rfl
@[simp] theorem State.complete_arg0 (s : State) : s.complete.arg0 = s.arg0 := rfl
@[simp] theorem State.complete_arg1 (s : State) : s.complete.arg1 = s.arg1 := rfl
@[simp] theorem State.complete_arg2 (s : State) : s.complete.arg2 = s.arg2 := rfl
@[simp] theorem State.complete_arg3 (s : State) : s.complete.arg3 = s.arg3 := rfl
@[simp] theorem State.complete_res0 (s : State) : s.complete.res0 = s.res0 := rfl
@[simp] theorem State.complete_cfgK (s : State) : s.complete.cfgK = s.cfgK := rfl
@[simp] theorem State.complete_cfgN (s : State) : s.complete.cfgN = s.cfgN := rfl
@[simp] theorem State.complete_prng (s : State) : s.complete.prng = s.prng := rfl
@[simp] theorem State.complete_repairs (s : State) : s.complete.repairs = s.repairs := rfl
@[simp] theorem State.complete_errinfo (s : State) : s.complete.errinfo = s.errinfo := rfl
@[simp] theorem State.complete_xtab (s : State) : s.complete.xtab = s.xtab := rfl
@[simp] theorem State.complete_ytab (s : State) : s.complete.ytab = s.ytab := rfl
@[simp] theorem State.complete_coef (s : State) : s.complete.coef = s.coef := rfl
@[simp] theorem State.complete_dmem (s : State) : s.complete.dmem = s.dmem := rfl
@[simp] theorem State.complete_phase (s : State) : s.complete.phase = .idle := rfl
@[simp] theorem State.complete_powerOns (s : State) : s.complete.powerOns = s.powerOns := rfl
@[simp] theorem State.complete_draws (s : State) : s.complete.draws = s.draws := rfl
@[simp] theorem State.complete_host (s : State) : s.complete.host = s.host := rfl
@[simp] theorem State.complete_schedule (s : State) : s.complete.schedule = s.schedule := rfl

/-! ### State.takeError -/

@[simp] theorem State.takeError_params (s : State) (e : EngineError) : (s.takeError e).params = s.params := rfl
@[simp] theorem State.takeError_ie (s : State) (e : EngineError) : (s.takeError e).ie = s.ie := rfl
@[simp] theorem State.takeError_status (s : State) (e : EngineError) : (s.takeError e).status = { s.status with busy := false, done := true, err := true, errcode := e.kind.code } := rfl
@[simp] theorem State.takeError_arg0 (s : State) (e : EngineError) : (s.takeError e).arg0 = s.arg0 := rfl
@[simp] theorem State.takeError_arg1 (s : State) (e : EngineError) : (s.takeError e).arg1 = s.arg1 := rfl
@[simp] theorem State.takeError_arg2 (s : State) (e : EngineError) : (s.takeError e).arg2 = s.arg2 := rfl
@[simp] theorem State.takeError_arg3 (s : State) (e : EngineError) : (s.takeError e).arg3 = s.arg3 := rfl
@[simp] theorem State.takeError_res0 (s : State) (e : EngineError) : (s.takeError e).res0 = s.res0 := rfl
@[simp] theorem State.takeError_cfgK (s : State) (e : EngineError) : (s.takeError e).cfgK = s.cfgK := rfl
@[simp] theorem State.takeError_cfgN (s : State) (e : EngineError) : (s.takeError e).cfgN = s.cfgN := rfl
@[simp] theorem State.takeError_prng (s : State) (e : EngineError) : (s.takeError e).prng = s.prng := rfl
@[simp] theorem State.takeError_repairs (s : State) (e : EngineError) : (s.takeError e).repairs = s.repairs := rfl
@[simp] theorem State.takeError_errinfo (s : State) (e : EngineError) : (s.takeError e).errinfo = e.info := rfl
@[simp] theorem State.takeError_xtab (s : State) (e : EngineError) : (s.takeError e).xtab = s.xtab := rfl
@[simp] theorem State.takeError_ytab (s : State) (e : EngineError) : (s.takeError e).ytab = s.ytab := rfl
@[simp] theorem State.takeError_coef (s : State) (e : EngineError) : (s.takeError e).coef = s.coef := rfl
@[simp] theorem State.takeError_dmem (s : State) (e : EngineError) : (s.takeError e).dmem = s.dmem := rfl
@[simp] theorem State.takeError_phase (s : State) (e : EngineError) : (s.takeError e).phase = .idle := rfl
@[simp] theorem State.takeError_powerOns (s : State) (e : EngineError) : (s.takeError e).powerOns = s.powerOns := rfl
@[simp] theorem State.takeError_draws (s : State) (e : EngineError) : (s.takeError e).draws = s.draws := rfl
@[simp] theorem State.takeError_host (s : State) (e : EngineError) : (s.takeError e).host = s.host := rfl
@[simp] theorem State.takeError_schedule (s : State) (e : EngineError) : (s.takeError e).schedule = s.schedule := rfl

/-! ### State.resetRegisters -/

@[simp] theorem State.resetRegisters_params (s : State) : s.resetRegisters.params = s.params := rfl
@[simp] theorem State.resetRegisters_ie (s : State) : s.resetRegisters.ie = false := rfl
@[simp] theorem State.resetRegisters_status (s : State) : s.resetRegisters.status = Status.zero := rfl
@[simp] theorem State.resetRegisters_arg0 (s : State) : s.resetRegisters.arg0 = 0#32 := rfl
@[simp] theorem State.resetRegisters_arg1 (s : State) : s.resetRegisters.arg1 = 0#32 := rfl
@[simp] theorem State.resetRegisters_arg2 (s : State) : s.resetRegisters.arg2 = 0#32 := rfl
@[simp] theorem State.resetRegisters_arg3 (s : State) : s.resetRegisters.arg3 = 0#32 := rfl
@[simp] theorem State.resetRegisters_res0 (s : State) : s.resetRegisters.res0 = 0#32 := rfl
@[simp] theorem State.resetRegisters_cfgK (s : State) : s.resetRegisters.cfgK = 0#8 := rfl
@[simp] theorem State.resetRegisters_cfgN (s : State) : s.resetRegisters.cfgN = 0#8 := rfl
@[simp] theorem State.resetRegisters_prng (s : State) : s.resetRegisters.prng = 0#48 := rfl
@[simp] theorem State.resetRegisters_repairs (s : State) : s.resetRegisters.repairs = 0#32 := rfl
@[simp] theorem State.resetRegisters_errinfo (s : State) : s.resetRegisters.errinfo = 0#32 := rfl
@[simp] theorem State.resetRegisters_xtab (s : State) : s.resetRegisters.xtab = s.xtab := rfl
@[simp] theorem State.resetRegisters_ytab (s : State) : s.resetRegisters.ytab = s.ytab := rfl
@[simp] theorem State.resetRegisters_coef (s : State) : s.resetRegisters.coef = s.coef := rfl
@[simp] theorem State.resetRegisters_dmem (s : State) : s.resetRegisters.dmem = s.dmem := rfl
@[simp] theorem State.resetRegisters_phase (s : State) : s.resetRegisters.phase = .idle := rfl
@[simp] theorem State.resetRegisters_powerOns (s : State) : s.resetRegisters.powerOns = s.powerOns := rfl
@[simp] theorem State.resetRegisters_draws (s : State) : s.resetRegisters.draws = s.draws := rfl
@[simp] theorem State.resetRegisters_host (s : State) : s.resetRegisters.host = s.host := rfl
@[simp] theorem State.resetRegisters_schedule (s : State) : s.resetRegisters.schedule = s.schedule := rfl

/-! ### State.powerOnReset -/

@[simp] theorem State.powerOnReset_params (s : State) : s.powerOnReset.params = s.params := rfl
@[simp] theorem State.powerOnReset_ie (s : State) : s.powerOnReset.ie = false := rfl
@[simp] theorem State.powerOnReset_status (s : State) : s.powerOnReset.status = Status.zero := rfl
@[simp] theorem State.powerOnReset_arg0 (s : State) : s.powerOnReset.arg0 = 0#32 := rfl
@[simp] theorem State.powerOnReset_arg1 (s : State) : s.powerOnReset.arg1 = 0#32 := rfl
@[simp] theorem State.powerOnReset_arg2 (s : State) : s.powerOnReset.arg2 = 0#32 := rfl
@[simp] theorem State.powerOnReset_arg3 (s : State) : s.powerOnReset.arg3 = 0#32 := rfl
@[simp] theorem State.powerOnReset_res0 (s : State) : s.powerOnReset.res0 = 0#32 := rfl
@[simp] theorem State.powerOnReset_cfgK (s : State) : s.powerOnReset.cfgK = 0#8 := rfl
@[simp] theorem State.powerOnReset_cfgN (s : State) : s.powerOnReset.cfgN = 0#8 := rfl
@[simp] theorem State.powerOnReset_prng (s : State) : s.powerOnReset.prng = 0#48 := rfl
@[simp] theorem State.powerOnReset_repairs (s : State) : s.powerOnReset.repairs = 0#32 := rfl
@[simp] theorem State.powerOnReset_errinfo (s : State) : s.powerOnReset.errinfo = 0#32 := rfl
@[simp] theorem State.powerOnReset_xtab (s : State) : s.powerOnReset.xtab = [] := rfl
@[simp] theorem State.powerOnReset_ytab (s : State) : s.powerOnReset.ytab = [] := rfl
@[simp] theorem State.powerOnReset_coef (s : State) : s.powerOnReset.coef = [] := rfl
@[simp] theorem State.powerOnReset_dmem (s : State) : s.powerOnReset.dmem = [] := rfl
@[simp] theorem State.powerOnReset_phase (s : State) : s.powerOnReset.phase = .idle := rfl
@[simp] theorem State.powerOnReset_powerOns (s : State) : s.powerOnReset.powerOns = s.powerOns + 1 := rfl
@[simp] theorem State.powerOnReset_draws (s : State) : s.powerOnReset.draws = s.draws := rfl
@[simp] theorem State.powerOnReset_host (s : State) : s.powerOnReset.host = s.host := rfl
@[simp] theorem State.powerOnReset_schedule (s : State) : s.powerOnReset.schedule = s.schedule := rfl

/-! ### State.advance -/

@[simp] theorem State.advance_params (s : State) : s.advance.params = s.params := rfl
@[simp] theorem State.advance_ie (s : State) : s.advance.ie = s.ie := rfl
@[simp] theorem State.advance_status (s : State) : s.advance.status = s.status := rfl
@[simp] theorem State.advance_arg0 (s : State) : s.advance.arg0 = s.arg0 := rfl
@[simp] theorem State.advance_arg1 (s : State) : s.advance.arg1 = s.arg1 := rfl
@[simp] theorem State.advance_arg2 (s : State) : s.advance.arg2 = s.arg2 := rfl
@[simp] theorem State.advance_arg3 (s : State) : s.advance.arg3 = s.arg3 := rfl
@[simp] theorem State.advance_res0 (s : State) : s.advance.res0 = s.res0 := rfl
@[simp] theorem State.advance_cfgK (s : State) : s.advance.cfgK = s.cfgK := rfl
@[simp] theorem State.advance_cfgN (s : State) : s.advance.cfgN = s.cfgN := rfl
@[simp] theorem State.advance_prng (s : State) : s.advance.prng = s.prng := rfl
@[simp] theorem State.advance_repairs (s : State) : s.advance.repairs = s.repairs := rfl
@[simp] theorem State.advance_errinfo (s : State) : s.advance.errinfo = s.errinfo := rfl
@[simp] theorem State.advance_xtab (s : State) : s.advance.xtab = s.xtab := rfl
@[simp] theorem State.advance_ytab (s : State) : s.advance.ytab = s.ytab := rfl
@[simp] theorem State.advance_coef (s : State) : s.advance.coef = s.coef := rfl
@[simp] theorem State.advance_dmem (s : State) : s.advance.dmem = s.dmem := rfl
@[simp] theorem State.advance_phase (s : State) : s.advance.phase = s.phase := rfl
@[simp] theorem State.advance_powerOns (s : State) : s.advance.powerOns = s.powerOns := rfl
@[simp] theorem State.advance_draws (s : State) : s.advance.draws = s.draws := rfl
@[simp] theorem State.advance_host (s : State) : s.advance.host = { s.host with position := s.host.position + 1 } := rfl
@[simp] theorem State.advance_schedule (s : State) : s.advance.schedule = s.schedule := rfl

/-! ### State.bindVar -/

@[simp] theorem State.bindVar_params (s : State) (x : Nat) (v : Word) : (s.bindVar x v).params = s.params := rfl
@[simp] theorem State.bindVar_ie (s : State) (x : Nat) (v : Word) : (s.bindVar x v).ie = s.ie := rfl
@[simp] theorem State.bindVar_status (s : State) (x : Nat) (v : Word) : (s.bindVar x v).status = s.status := rfl
@[simp] theorem State.bindVar_arg0 (s : State) (x : Nat) (v : Word) : (s.bindVar x v).arg0 = s.arg0 := rfl
@[simp] theorem State.bindVar_arg1 (s : State) (x : Nat) (v : Word) : (s.bindVar x v).arg1 = s.arg1 := rfl
@[simp] theorem State.bindVar_arg2 (s : State) (x : Nat) (v : Word) : (s.bindVar x v).arg2 = s.arg2 := rfl
@[simp] theorem State.bindVar_arg3 (s : State) (x : Nat) (v : Word) : (s.bindVar x v).arg3 = s.arg3 := rfl
@[simp] theorem State.bindVar_res0 (s : State) (x : Nat) (v : Word) : (s.bindVar x v).res0 = s.res0 := rfl
@[simp] theorem State.bindVar_cfgK (s : State) (x : Nat) (v : Word) : (s.bindVar x v).cfgK = s.cfgK := rfl
@[simp] theorem State.bindVar_cfgN (s : State) (x : Nat) (v : Word) : (s.bindVar x v).cfgN = s.cfgN := rfl
@[simp] theorem State.bindVar_prng (s : State) (x : Nat) (v : Word) : (s.bindVar x v).prng = s.prng := rfl
@[simp] theorem State.bindVar_repairs (s : State) (x : Nat) (v : Word) : (s.bindVar x v).repairs = s.repairs := rfl
@[simp] theorem State.bindVar_errinfo (s : State) (x : Nat) (v : Word) : (s.bindVar x v).errinfo = s.errinfo := rfl
@[simp] theorem State.bindVar_xtab (s : State) (x : Nat) (v : Word) : (s.bindVar x v).xtab = s.xtab := rfl
@[simp] theorem State.bindVar_ytab (s : State) (x : Nat) (v : Word) : (s.bindVar x v).ytab = s.ytab := rfl
@[simp] theorem State.bindVar_coef (s : State) (x : Nat) (v : Word) : (s.bindVar x v).coef = s.coef := rfl
@[simp] theorem State.bindVar_dmem (s : State) (x : Nat) (v : Word) : (s.bindVar x v).dmem = s.dmem := rfl
@[simp] theorem State.bindVar_phase (s : State) (x : Nat) (v : Word) : (s.bindVar x v).phase = s.phase := rfl
@[simp] theorem State.bindVar_powerOns (s : State) (x : Nat) (v : Word) : (s.bindVar x v).powerOns = s.powerOns := rfl
@[simp] theorem State.bindVar_draws (s : State) (x : Nat) (v : Word) : (s.bindVar x v).draws = s.draws := rfl
@[simp] theorem State.bindVar_host (s : State) (x : Nat) (v : Word) : (s.bindVar x v).host = { s.host with vars := (x, v) :: s.host.vars } := rfl
@[simp] theorem State.bindVar_schedule (s : State) (x : Nat) (v : Word) : (s.bindVar x v).schedule = s.schedule := rfl

end Sys2Proof.Machine
end

