-- ==== Sys2Proof/Laws/Ops.lean ====
section
/-!
SUPPORT. What the shared operations can do, said once each: the loops, one read and one write of DMEM and of each table,
the completion and error entry, acceptance, the free draws and the resets.
-/

namespace Sys2Proof.Machine

/-! ### Loops -/

@[simp] theorem forUp_zero {α : Type} (body : Nat → α → α) (x : α) : forUp 0 body x = x := rfl

@[simp] theorem forUp_succ {α : Type} (n : Nat) (body : Nat → α → α) (x : α) :
    forUp (n + 1) body x = body n (forUp n body x) := rfl

/-- What holds before a loop and is kept by each pass holds after it; the claim may speak of the passes made. -/
theorem forUp_induct {α : Type} {body : Nat → α → α} {x : α} (inv : Nat → α → Prop) {n : Nat} (h0 : inv 0 x)
    (hstep : ∀ i y, i < n → inv i y → inv (i + 1) (body i y)) : inv n (forUp n body x) := by
  suffices h : ∀ m, m ≤ n → inv m (forUp m body x) from h n (Nat.le_refl n)
  intro m
  induction m with
  | zero => exact fun _ => h0
  | succ m ih => exact fun hm => hstep m _ hm (ih (Nat.le_of_succ_le hm))

/-- A loop seen as the sequence of what a projection shows before each pass (R258: one pass after another). -/
theorem forUp_sequence {α β : Type} (n : Nat) (body : Nat → α → α) (x : α) (f : α → β) :
    ∃ m : Nat → β, m 0 = f x ∧ f (forUp n body x) = m n ∧ ∀ i, i < n → ∃ y, m i = f y ∧ m (i + 1) = f (body i y) :=
  ⟨fun i => f (forUp i body x), rfl, rfl, fun i _ => ⟨forUp i body x, rfl, rfl⟩⟩

/-- A projection that no pass changes is unchanged by the loop. -/
theorem forUp_keeps {α β : Type} {body : Nat → α → α} (f : α → β) (hbody : ∀ i y, f (body i y) = f y) (n : Nat) (x : α) :
    f (forUp n body x) = f x :=
  forUp_induct (fun _ y => f y = f x) rfl fun i y _ hy => (hbody i y).trans hy

@[simp] theorem forUpE_zero {ε α : Type} (body : Nat → α → Except ε α) (x : α) : forUpE 0 body x = .ok x := rfl

/-- The passes of a loop that answers a value all answer one. -/
theorem forUpE_succ_ok {ε α : Type} {n : Nat} {body : Nat → α → Except ε α} {x z : α} :
    forUpE (n + 1) body x = .ok z ↔ ∃ y, forUpE n body x = .ok y ∧ body n y = .ok z := by
  cases h : forUpE n body x with
  | ok y => simp [forUpE, h]
  | error e => simp [forUpE, h]

/-- forUp_induct for a loop whose passes may raise an error. -/
theorem forUpE_induct {ε α : Type} {body : Nat → α → Except ε α} {x : α} (inv : Nat → α → Prop) {n : Nat} {z : α}
    (h0 : inv 0 x) (hstep : ∀ i y y', i < n → inv i y → body i y = .ok y' → inv (i + 1) y')
    (hz : forUpE n body x = .ok z) : inv n z := by
  suffices h : ∀ m, m ≤ n → ∀ y, forUpE m body x = .ok y → inv m y from h n (Nat.le_refl n) z hz
  intro m
  induction m with
  | zero =>
    intro _ y hy
    cases hy
    exact h0
  | succ m ih =>
    intro hm y hy
    obtain ⟨u, hu, huy⟩ := forUpE_succ_ok.mp hy
    exact hstep m u y hm (ih (Nat.le_of_succ_le hm) u hu) huy

/-- A loop none of whose passes raises an error, while the claim holds, answers a value. -/
theorem forUpE_total {ε α : Type} {body : Nat → α → Except ε α} {x : α} (inv : Nat → α → Prop) {n : Nat} (h0 : inv 0 x)
    (hstep : ∀ i y, i < n → inv i y → ∃ y', body i y = .ok y' ∧ inv (i + 1) y') :
    ∃ z, forUpE n body x = .ok z ∧ inv n z := by
  suffices h : ∀ m, m ≤ n → ∃ y, forUpE m body x = .ok y ∧ inv m y from h n (Nat.le_refl n)
  intro m
  induction m with
  | zero => exact fun _ => ⟨x, rfl, h0⟩
  | succ m ih =>
    intro hm
    obtain ⟨y, hy, hinv⟩ := ih (Nat.le_of_succ_le hm)
    obtain ⟨y', hy', hinv'⟩ := hstep m y hm hinv
    exact ⟨y', forUpE_succ_ok.mpr ⟨y, hy, hy'⟩, hinv'⟩

/-- firstIn names the least index of which the test holds. -/
theorem firstIn_eq_some {n j : Nat} {test : Nat → Bool} :
    firstIn n test = some j ↔ j < n ∧ test j = true ∧ ∀ i, i < j → test i = false := by
  simp [firstIn, List.find?_range_eq_some, and_left_comm]

/-- firstIn finds nothing exactly when the test holds nowhere. -/
theorem firstIn_eq_none {n : Nat} {test : Nat → Bool} : firstIn n test = none ↔ ∀ j, j < n → test j = false := by
  simp [firstIn]

/-! ### One byte of DMEM, one entry of a table -/

@[simp] theorem State.readByte_writeByte_same (s : State) (a : Nat) (v : Byte) : (s.writeByte a v).readByte a = v := by
  simp [State.readByte]

@[simp] theorem State.readByte_writeByte_other (s : State) {a c : Nat} (v : Byte) (h : c ≠ a) :
    (s.writeByte a v).readByte c = s.readByte c := by
  simp [State.readByte, h]

/-- One read after one write, in both cases. -/
theorem State.readByte_writeByte (s : State) (a c : Nat) (v : Byte) :
    (s.writeByte a v).readByte c = if c = a then v else s.readByte c := by
  by_cases h : c = a
  · simp [h]
  · simp [h]

@[simp] theorem State.xEntry_setX_same (s : State) (j : Nat) (v : Byte) : (s.setX j v).xEntry j = v := by
  simp [State.xEntry]

@[simp] theorem State.xEntry_setX_other (s : State) {j i : Nat} (v : Byte) (h : i ≠ j) :
    (s.setX j v).xEntry i = s.xEntry i := by
  simp [State.xEntry, h]

@[simp] theorem State.yEntry_setY_same (s : State) (j : Nat) (v : Entry) : (s.setY j v).yEntry j = v := by
  simp [State.yEntry]

@[simp] theorem State.yEntry_setY_other (s : State) {j i : Nat} (v : Entry) (h : i ≠ j) :
    (s.setY j v).yEntry i = s.yEntry i := by
  simp [State.yEntry, h]

@[simp] theorem State.coefEntry_setCoef_same (s : State) (j : Nat) (v : Entry) : (s.setCoef j v).coefEntry j = v := by
  simp [State.coefEntry]

@[simp] theorem State.coefEntry_setCoef_other (s : State) {j i : Nat} (v : Entry) (h : i ≠ j) :
    (s.setCoef j v).coefEntry i = s.coefEntry i := by
  simp [State.coefEntry, h]

/-- A byte reads the same in two states with the same DMEM and the same power-on. -/
theorem State.readByte_congr {s t : State} (hd : t.dmem = s.dmem) (hp : t.powerOns = s.powerOns) (a : Nat) :
    t.readByte a = s.readByte a := by
  simp [State.readByte, hd, hp]

theorem State.xEntry_congr {s t : State} (hd : t.xtab = s.xtab) (hp : t.powerOns = s.powerOns) (j : Nat) :
    t.xEntry j = s.xEntry j := by
  simp [State.xEntry, hd, hp]

theorem State.yEntry_congr {s t : State} (hd : t.ytab = s.ytab) (hp : t.powerOns = s.powerOns) (j : Nat) :
    t.yEntry j = s.yEntry j := by
  simp [State.yEntry, hd, hp]

theorem State.coefEntry_congr {s t : State} (hd : t.coef = s.coef) (hp : t.powerOns = s.powerOns) (j : Nat) :
    t.coefEntry j = s.coefEntry j := by
  simp [State.coefEntry, hd, hp]

/-! ### Completion and error entry -/

@[simp] theorem finish_ok (s t : State) : finish s (.ok t) = .next t.complete := rfl

@[simp] theorem finish_error (s : State) (e : EngineError) : finish s (.error e) = .next (s.takeError e) := rfl

/-- The completion written out. -/
theorem State.complete_eq (s : State) :
    s.complete = { s with phase := .idle, status := { s.status with busy := false, done := true } } := rfl

/-- A completion step always answers a next state: the command's state completed, or the error entry. -/
theorem finish_cases (s : State) (o : Except EngineError State) :
    (∃ t, o = .ok t ∧ finish s o = .next t.complete) ∨
      ∃ e, o = .error e ∧ finish s o = .next (s.takeError e) := by
  cases o with
  | ok t => exact .inl ⟨t, rfl, rfl⟩
  | error e => exact .inr ⟨e, rfl, rfl⟩

/-- ERRCODE of an error is one of 0x01 to 0x05. -/
theorem ErrorKind.code_range (k : ErrorKind) : 1 ≤ k.code.toNat ∧ k.code.toNat ≤ 5 := by
  cases k <;> decide

/-! ### Acceptance -/

/-- What an offered word can do: it is dropped, or it is accepted by an idle engine without an error. -/
theorem State.offer_cases (s : State) (w : Word) :
    ((s.phase ≠ .idle ∨ s.status.err = true) ∧ s.offer w = s.flagDrop) ∨
      (s.phase = .idle ∧ s.status.err = false ∧
        s.offer w = { s with phase := .busy w, status := { s.status with busy := true, done := false } }) := by
  by_cases h : s.phase ≠ .idle ∨ s.status.err = true
  · exact .inl ⟨h, by rw [State.offer, if_pos h]⟩
  · obtain ⟨h1, h2⟩ := not_or.mp h
    exact .inr ⟨not_not.mp h1, by simpa using h2, by rw [State.offer, if_neg h]⟩

/-! ### Writes of several bytes -/

/-- MemWrite changes DMEM only. -/
theorem State.memWrite_eq (s : State) (a n : Nat) (v : Word) :
    s.memWrite a n v = { s with dmem := (s.memWrite a n v).dmem } := by
  unfold State.memWrite
  refine forUp_induct (fun _ (t : State) => t = { s with dmem := t.dmem }) rfl fun i t _ ht => ?_
  conv_lhs => rw [ht]
  rfl

/-- MemWrite writes bytes a to a+n−1, little-endian, and no other. -/
theorem State.readByte_memWrite (s : State) (a n c : Nat) (v : Word) :
    (s.memWrite a n v).readByte c =
      if a ≤ c ∧ c < a + n then v.extractLsb' (8 * (c - a)) 8 else s.readByte c := by
  unfold State.memWrite
  refine forUp_induct (fun m (t : State) => t.readByte c = if a ≤ c ∧ c < a + m then v.extractLsb' (8 * (c - a)) 8
    else s.readByte c) ?_ ?_
  · rw [if_neg (by omega)]
  · intro i t _ ht
    rw [State.readByte_writeByte, ht]
    by_cases hc : c = a + i
    · subst hc
      simp
    · by_cases hr : a ≤ c ∧ c < a + i
      · rw [if_neg hc, if_pos hr, if_pos (by omega)]
      · rw [if_neg hc, if_neg hr, if_neg (by omega)]

/-! ### Free values and resets -/

/-- A scrambled byte changes DMEM and the draw counter only. -/
theorem State.scrambleByte_eq (s : State) (a : Nat) :
    s.scrambleByte a = { s with dmem := (s.scrambleByte a).dmem, draws := (s.scrambleByte a).draws } := by
  unfold State.scrambleByte
  split <;> rfl

/-- Scrambled bytes change DMEM and the draw counter only. -/
theorem State.scrambleBytes_eq (s : State) (a len : Nat) :
    s.scrambleBytes a len =
      { s with dmem := (s.scrambleBytes a len).dmem, draws := (s.scrambleBytes a len).draws } := by
  unfold State.scrambleBytes
  refine forUp_induct (fun _ (t : State) => t = { s with dmem := t.dmem, draws := t.draws }) rfl fun i t _ ht => ?_
  rw [State.scrambleByte_eq]
  generalize (t.scrambleByte (a + i)).dmem = m, (t.scrambleByte (a + i)).draws = d
  rw [ht]

/-- A byte outside the scrambled range reads as before. -/
theorem State.readByte_scrambleBytes (s : State) {a len c : Nat} (h : c < a ∨ a + len ≤ c) :
    (s.scrambleBytes a len).readByte c = s.readByte c := by
  unfold State.scrambleBytes
  refine forUp_induct (fun _ (t : State) => t.readByte c = s.readByte c) rfl fun i t hi ht => ?_
  rw [← ht]
  unfold State.scrambleByte
  split
  · rw [State.readByte_writeByte_other _ _ (by omega)]
    rfl
  · rfl

/-- From s to t, every existing byte of a set of addresses has come to read as a free value, from a draw made on the way that
serves no other byte of the set. -/
structure BytesDrawn (s t : State) (drawn : Nat → Prop) : Prop where
  params : t.params = s.params
  draws : s.draws ≤ t.draws
  reads : ∃ d : Nat → Nat,
    (∀ c, drawn c → c < s.params.dmemSize → s.draws ≤ d c ∧ d c < t.draws ∧ t.readByte c = Config.freeByte (d c)) ∧
      ∀ c e, drawn c → c < s.params.dmemSize → drawn e → e < s.params.dmemSize → d c = d e → c = e

theorem BytesDrawn.refl (s : State) : BytesDrawn s s fun _ => False :=
  ⟨rfl, Nat.le_refl _, id, fun _ h => h.elim, fun _ _ h => h.elim⟩

/-- A smaller set of addresses. -/
theorem BytesDrawn.mono {s t : State} {p q : Nat → Prop} (h : BytesDrawn s t p) (hpq : ∀ c, q c → p c) : BytesDrawn s t q :=
  let ⟨d, hd, hi⟩ := h.reads
  ⟨h.params, h.draws, d, fun c hc => hd c (hpq c hc), fun c e hc hcl he => hi c e (hpq c hc) hcl (hpq e he)⟩

/-- One more byte drawn. -/
theorem BytesDrawn.scrambleByte {s t : State} {p : Nat → Prop} (h : BytesDrawn s t p) (a : Nat) :
    BytesDrawn s (t.scrambleByte a) fun c => p c ∨ c = a := by
  obtain ⟨hp, hle, d, hd, hi⟩ := h
  unfold State.scrambleByte
  rw [hp]
  split
  · refine ⟨hp, Nat.le_succ_of_le hle, fun c => if c = a then t.draws else d c, fun c hc hcl => ?_, fun c e hc hcl he hel => ?_⟩
    · rw [State.readByte_writeByte]
      by_cases hca : c = a
      · simp only [if_pos hca]
        exact ⟨hle, Nat.lt_succ_self _, rfl⟩
      · simp only [if_neg hca]
        obtain ⟨h1, h2, h3⟩ := hd c (hc.resolve_right hca) hcl
        exact ⟨h1, Nat.lt_succ_of_lt h2, h3⟩
    · have old {x : Nat} (hx : p x ∨ x = a) (hxl : x < s.params.dmemSize) (hxa : x ≠ a) : p x ∧ d x < t.draws :=
        ⟨hx.resolve_right hxa, (hd x (hx.resolve_right hxa) hxl).2.1⟩
      by_cases hca : c = a <;> by_cases hea : e = a <;> simp only [hca, hea, if_true, if_false]
      · exact fun _ => trivial
      · exact fun hde => absurd (old he hel hea).2 (by omega)
      · exact fun hde => absurd (old hc hcl hca).2 (by omega)
      · exact hi c e (old hc hcl hca).1 hcl (old he hel hea).1 hel
  · refine ⟨hp, hle, d, fun c hc hcl => ?_, fun c e hc hcl he hel => ?_⟩
    · exact hd c (hc.resolve_right (by omega)) hcl
    · exact hi c e (hc.resolve_right (by omega)) hcl (he.resolve_right (by omega)) hel

/-- A range of bytes drawn. -/
theorem BytesDrawn.scrambleBytes {s t : State} {p : Nat → Prop} (h : BytesDrawn s t p) (a len : Nat) :
    BytesDrawn s (t.scrambleBytes a len) fun c => p c ∨ (a ≤ c ∧ c < a + len) := by
  unfold State.scrambleBytes
  refine forUp_induct (fun m u => BytesDrawn s u fun c => p c ∨ (a ≤ c ∧ c < a + m)) (h.mono fun c hc => ?_)
    fun i u _ hu => (hu.scrambleByte (a + i)).mono fun c hc => ?_
  · exact hc.resolve_right (by omega)
  · by_cases hca : c = a + i
    · exact .inr hca
    · exact .inl (hc.imp_right fun _ => by omega)

/-- Scrambled coefficients count a draw each. -/
theorem State.scrambleCoef_draws (s : State) (k : Nat) : (s.scrambleCoef k).draws = s.draws + k :=
  forUp_induct (fun m (t : State) => t.draws = s.draws + m) rfl fun i t _ ht => show t.draws + 1 = _ by omega

/-- Scrambled values count a draw each. -/
theorem State.scrambleY_draws (s : State) (n : Nat) : (s.scrambleY n).draws = s.draws + n :=
  forUp_induct (fun m (t : State) => t.draws = s.draws + m) rfl fun i t _ ht => show t.draws + 1 = _ by omega

/-- A scrambled coefficient reads as the free value of its own draw, and any other as before. -/
theorem State.coefEntry_scrambleCoef (s : State) (k j : Nat) :
    (s.scrambleCoef k).coefEntry j = if j < k then Config.freeEntry (s.draws + j) else s.coefEntry j := by
  refine (forUp_induct (fun m (t : State) => t.draws = s.draws + m ∧
    t.coefEntry j = if j < m then Config.freeEntry (s.draws + j) else s.coefEntry j) ⟨rfl, rfl⟩ fun i t _ ht => ?_).2
  refine ⟨show t.draws + 1 = _ by omega, ?_⟩
  by_cases hj : j = i
  · subst hj
    rw [State.coefEntry_setCoef_same, if_pos (Nat.lt_succ_self j), ← ht.1]
    rfl
  · rw [State.coefEntry_setCoef_other _ _ hj]
    refine Eq.trans (b := t.coefEntry j) rfl ?_
    simp [ht.2, show j < i + 1 ↔ j < i by omega]

/-- A scrambled value reads as the free value of its own draw, and any other as before. -/
theorem State.yEntry_scrambleY (s : State) (n j : Nat) :
    (s.scrambleY n).yEntry j = if j < n then Config.freeEntry (s.draws + j) else s.yEntry j := by
  refine (forUp_induct (fun m (t : State) => t.draws = s.draws + m ∧
    t.yEntry j = if j < m then Config.freeEntry (s.draws + j) else s.yEntry j) ⟨rfl, rfl⟩ fun i t _ ht => ?_).2
  refine ⟨show t.draws + 1 = _ by omega, ?_⟩
  by_cases hj : j = i
  · subst hj
    rw [State.yEntry_setY_same, if_pos (Nat.lt_succ_self j), ← ht.1]
    rfl
  · rw [State.yEntry_setY_other _ _ hj]
    refine Eq.trans (b := t.yEntry j) rfl ?_
    simp [ht.2, show j < i + 1 ↔ j < i by omega]

/-- Scrambled coefficients change COEF and the draw counter only. -/
theorem State.scrambleCoef_eq (s : State) (k : Nat) :
    s.scrambleCoef k = { s with coef := (s.scrambleCoef k).coef, draws := (s.scrambleCoef k).draws } := by
  unfold State.scrambleCoef
  refine forUp_induct (fun _ (t : State) => t = { s with coef := t.coef, draws := t.draws }) rfl fun i t _ ht => ?_
  conv_lhs => rw [ht]
  rfl

/-- Scrambled values change YTAB and the draw counter only. -/
theorem State.scrambleY_eq (s : State) (n : Nat) :
    s.scrambleY n = { s with ytab := (s.scrambleY n).ytab, draws := (s.scrambleY n).draws } := by
  unfold State.scrambleY
  refine forUp_induct (fun _ (t : State) => t = { s with ytab := t.ytab, draws := t.draws }) rfl fun i t _ ht => ?_
  conv_lhs => rw [ht]
  rfl

/-- An abandoned command leaves free values in storage, and everything but storage and the draw counter as it was. -/
theorem State.abandon_eq (s : State) (c : Word) :
    ∃ m k y d, s.abandon c = { s with dmem := m, coef := k, ytab := y, draws := d } := by
  have hbytes (a len : Nat) : ∃ m k y d, s.scrambleBytes a len = { s with dmem := m, coef := k, ytab := y, draws := d } :=
    ⟨_, s.coef, s.ytab, _, State.scrambleBytes_eq s a len⟩
  have hcoef (n : Nat) : ∃ m k y d, s.scrambleCoef n = { s with dmem := m, coef := k, ytab := y, draws := d } :=
    ⟨s.dmem, _, s.ytab, _, State.scrambleCoef_eq s n⟩
  have hnone : ∃ m k y d, s = { s with dmem := m, coef := k, ytab := y, draws := d } := ⟨_, _, _, _, rfl⟩
  unfold State.abandon
  split
  · exact hnone
  · split
    all_goals first | exact hnone | exact hbytes _ _ | exact hcoef _ | skip
    · obtain ⟨m, k, y, d, h⟩ := hcoef s.cfgK.toNat
      rw [h]
      exact ⟨_, _, _, _, State.scrambleY_eq _ _⟩
    · refine forUp_induct (fun _ (t : State) => ∃ m k y d, t = { s with dmem := m, coef := k, ytab := y, draws := d })
        (hbytes _ _) fun i t _ ht => ?_
      obtain ⟨m, k, y, d, rfl⟩ := ht
      exact ⟨_, _, _, _, State.scrambleBytes_eq _ _ _⟩

/-- A soft reset resets the registers of the state itself, or of the state an abandoned command leaves. -/
theorem State.softReset_cases (s : State) :
    (s.phase = .idle ∧ s.softReset = s.resetRegisters) ∨
      ∃ c, s.phase = .busy c ∧ s.softReset = (s.abandon c).resetRegisters := by
  unfold State.softReset
  split
  · exact .inl ⟨‹_›, rfl⟩
  · exact .inr ⟨_, ‹_›, rfl⟩

end Sys2Proof.Machine
end

