-- ==== Sys2Proof/Laws/Bus.lean ====
section
/-!
SUPPORT. What a host access can do, said once: which accesses have a target and within what bounds, what a read leaves, and
the cases of a write.
-/

namespace Sys2Proof.Machine

/-- A target lies within its region. -/
theorem accessTarget_bounds {p : Params} {w : Width} {off : Word} {g : Target} (h : accessTarget p w off = some g) :
    match g with
    | .reg _ => True
    | .xtab j => j < 256
    | .ytab j => j < 256
    | .coef j => j < 256
    | .dmem a => a + w.bytes ≤ p.dmemSize := by
  unfold accessTarget at h
  simp only at h
  split at h
  · split at h
    · unfold wordTarget at h
      split at h
      · obtain ⟨r, _, rfl⟩ := Option.map_eq_some_iff.mp h
        trivial
      · split at h
        · cases h
          show _ < 256
          omega
        · split at h
          · cases h
            show _ < 256
            omega
          · cases h
            show _ < 256
            omega
    · cases h
  · split at h
    · cases h
      rename_i hc
      exact hc.2.2
    · cases h

/-- Drawing bytes changes the draw counter only. -/
theorem State.drawBytes_eq (s : State) (n : Nat) : (s.drawBytes n).2 = { s with draws := (s.drawBytes n).2.draws } := by
  unfold State.drawBytes
  refine forUp_induct (fun _ (x : Nat × State) => x.2 = { s with draws := x.2.draws }) rfl fun i x _ hx => ?_
  show ({ x.2 with draws := x.2.draws + 1 } : State) = _
  conv_lhs => rw [hx]
  rfl

/-- A host read leaves everything but ACCERR and the draw counter as it was (R68). -/
theorem State.busRead_state (s : State) (w : Width) (off : Word) :
    (s.busRead w off).2 = s.flagAccess ∧ accessTarget s.params w off = none ∨
      ∃ d, (s.busRead w off).2 = { s with draws := d } := by
  unfold State.busRead
  split
  · exact .inl ⟨rfl, ‹_›⟩
  · right
    unfold State.readReg
    split
    · exact ⟨_, rfl⟩
    · exact ⟨s.draws, rfl⟩
  · exact .inr ⟨s.draws, rfl⟩
  · right
    unfold State.readEntry
    split
    · exact ⟨_, rfl⟩
    · exact ⟨s.draws, rfl⟩
  · right
    unfold State.readEntry
    split
    · exact ⟨_, rfl⟩
    · exact ⟨s.draws, rfl⟩
  · right
    unfold State.readDmem
    split
    · exact ⟨_, State.drawBytes_eq s _⟩
    · exact ⟨s.draws, rfl⟩

@[simp] theorem State.unlessBusy_of_busy {s : State} (t : State) (h : s.status.busy = true) :
    s.unlessBusy t = s.flagHazard := by
  simp [State.unlessBusy, h]

@[simp] theorem State.unlessBusy_of_idle {s : State} (t : State) (h : s.status.busy = false) : s.unlessBusy t = t := by
  simp [State.unlessBusy, h]

/-- A guarded write is the write, or HZD set. -/
theorem State.unlessBusy_cases (s t : State) :
    (s.status.busy = true ∧ s.unlessBusy t = s.flagHazard) ∨ (s.status.busy = false ∧ s.unlessBusy t = t) := by
  cases h : s.status.busy with
  | true => exact .inl ⟨rfl, by simp [h]⟩
  | false => exact .inr ⟨rfl, by simp [h]⟩

/-- A write to CTRL is a soft reset or a write of IE. -/
theorem State.writeCtrl_cases (s : State) (v : Word) :
    (v.getLsbD 1 = true ∧ s.writeCtrl v = s.softReset) ∨
      (v.getLsbD 1 = false ∧ s.writeCtrl v = { s with ie := v.getLsbD 0 }) := by
  cases h : v.getLsbD 1 with
  | true => exact .inl ⟨rfl, by rw [State.writeCtrl, if_pos h]⟩
  | false => exact .inr ⟨rfl, by rw [State.writeCtrl, if_neg (by rw [h]; exact Bool.false_ne_true)]⟩

/-- A host write changes nothing of the host, the schedule, the parameters or the power-on count. -/
theorem State.busWrite_keeps (s : State) (w : Width) (off v : Word) :
    (s.busWrite w off v).host = s.host ∧ (s.busWrite w off v).schedule = s.schedule ∧
      (s.busWrite w off v).params = s.params ∧ (s.busWrite w off v).powerOns = s.powerOns := by
  have guarded (t : State) (h : t.host = s.host ∧ t.schedule = s.schedule ∧ t.params = s.params ∧ t.powerOns = s.powerOns) :
      (s.unlessBusy t).host = s.host ∧ (s.unlessBusy t).schedule = s.schedule ∧ (s.unlessBusy t).params = s.params ∧
        (s.unlessBusy t).powerOns = s.powerOns := by
    rcases s.unlessBusy_cases t with ⟨_, hu⟩ | ⟨_, hu⟩
    · rw [hu]
      exact ⟨rfl, rfl, rfl, rfl⟩
    · rw [hu]
      exact h
  unfold State.busWrite
  split
  · exact ⟨rfl, rfl, rfl, rfl⟩
  · unfold State.writeReg
    split
    case h_2 =>
      rcases s.writeCtrl_cases v with ⟨_, h⟩ | ⟨_, h⟩
      · rw [h]
        rcases s.softReset_cases with ⟨_, h⟩ | ⟨c, _, h⟩
        · rw [h]
          exact ⟨rfl, rfl, rfl, rfl⟩
        · obtain ⟨m, k, y, d, ha⟩ := s.abandon_eq c
          rw [h, ha]
          exact ⟨rfl, rfl, rfl, rfl⟩
      · rw [h]
        exact ⟨rfl, rfl, rfl, rfl⟩
    case h_4 =>
      rcases s.offer_cases v with ⟨_, h⟩ | ⟨_, _, h⟩
      · rw [h]
        exact ⟨rfl, rfl, rfl, rfl⟩
      · rw [h]
        exact ⟨rfl, rfl, rfl, rfl⟩
    all_goals first | exact ⟨rfl, rfl, rfl, rfl⟩ | exact guarded _ ⟨rfl, rfl, rfl, rfl⟩
  · exact guarded _ ⟨rfl, rfl, rfl, rfl⟩
  · exact guarded _ ⟨rfl, rfl, rfl, rfl⟩
  · exact guarded _ ⟨rfl, rfl, rfl, rfl⟩
  · exact guarded _ (by rw [State.memWrite_eq]; exact ⟨rfl, rfl, rfl, rfl⟩)

end Sys2Proof.Machine
end

