-- ==== Sys2Proof/Laws/Operands.lean ====
section
/-!
SUPPORT. What each operand form answers, said once: the operand exactly when its check holds, else the error.
-/

namespace Sys2Proof.Machine

/-- Except's bind on an answered operand. -/
@[simp] theorem Except.bind_of_ok {ε α β : Type} (a : α) (f : α → Except ε β) : (Except.ok a >>= f) = f a := rfl

/-- Except's bind on an error. -/
@[simp] theorem Except.bind_of_error {ε α β : Type} (e : ε) (f : α → Except ε β) :
    ((Except.error e : Except ε α) >>= f) = .error e := rfl

/-- A chain that answers a value answered every operand on the way. -/
theorem Except.bind_eq_ok {ε α β : Type} {x : Except ε α} {f : α → Except ε β} {b : β} :
    (x >>= f) = .ok b ↔ ∃ a, x = .ok a ∧ f a = .ok b := by
  cases x with
  | ok a => simp
  | error e => simp

theorem seedOperand_of_zero {arg off : Word} (h : arg.extractLsb' 16 16 = 0#16) :
    seedOperand arg off = .ok (arg.extractLsb' 0 16) := by
  simp [seedOperand, h]

theorem seedOperand_of_nonzero {arg off : Word} (h : arg.extractLsb' 16 16 ≠ 0#16) :
    seedOperand arg off = .error ⟨.invalidArgument, off⟩ := by
  simp [seedOperand, h]

theorem canonOperand_of_le {arg off : Word} (h : arg.toNat ≤ 256) : canonOperand arg off = .ok arg.toNat := by
  simp [canonOperand, canon, h]

theorem canonOperand_of_gt {arg off : Word} (h : 256 < arg.toNat) :
    canonOperand arg off = .error ⟨.invalidArgument, off⟩ := by
  simp [canonOperand, canon, h]

theorem thresholdOperand_of_legal {s : State} (h2 : 2 ≤ s.cfgK.toNat) (hm : s.cfgK.toNat ≤ s.params.kMax) :
    thresholdOperand s = .ok s.cfgK.toNat := by
  rw [thresholdOperand, if_neg (by omega)]

theorem thresholdOperand_of_illegal {s : State} (h : s.cfgK.toNat < 2 ∨ s.params.kMax < s.cfgK.toNat) :
    thresholdOperand s = .error ⟨.invalidArgument, Offset.cfg⟩ := by
  rw [thresholdOperand, if_pos h]

theorem shareOperand_of_legal {s : State} (h2 : 2 ≤ s.cfgK.toNat) (hm : s.cfgK.toNat ≤ s.params.kMax)
    (hn : s.cfgK.toNat ≤ s.cfgN.toNat) : shareOperand s = .ok (s.cfgK.toNat, s.cfgN.toNat) := by
  rw [shareOperand, if_neg (by omega)]

theorem shareOperand_of_illegal {s : State}
    (h : s.cfgK.toNat < 2 ∨ s.params.kMax < s.cfgK.toNat ∨ s.cfgN.toNat < s.cfgK.toNat) :
    shareOperand s = .error ⟨.invalidArgument, Offset.cfg⟩ := by
  rw [shareOperand, if_pos h]

/-- A table operand answers its entries when every one passes the test. -/
theorem entriesOperand_of_all {k : Nat} {entry : Nat → Entry} {test : Nat → Bool} {offset : Nat → Word}
    (h : ∀ j, j < k → test (entry j).toNat = true) :
    entriesOperand k entry test offset = .ok ((List.range k).map fun j => (entry j).toNat) := by
  have hn : firstIn k (fun j => !test (entry j).toNat) = none :=
    firstIn_eq_none.mpr fun j hj => by simp [h j hj]
  simp [entriesOperand, hn]

/-- A table operand names the first entry that fails the test. -/
theorem entriesOperand_of_first {k j : Nat} {entry : Nat → Entry} {test : Nat → Bool} {offset : Nat → Word}
    (hj : j < k) (hbad : test (entry j).toNat = false) (hgood : ∀ i, i < j → test (entry i).toNat = true) :
    entriesOperand k entry test offset = .error ⟨.invalidArgument, offset j⟩ := by
  have hs : firstIn k (fun i => !test (entry i).toNat) = some j :=
    firstIn_eq_some.mpr ⟨hj, by simp [hbad], fun i hi => by simp [hgood i hi]⟩
  simp [entriesOperand, hs]

/-- A point is bad when it is zero or an earlier entry repeats it. -/
theorem badPoint_iff {s : State} {j : Nat} :
    badPoint s j = true ↔ s.xEntry j = 0#8 ∨ ∃ i, i < j ∧ s.xEntry i = s.xEntry j := by
  simp [badPoint]

/-- The point check answers the points when each is nonzero and no two are equal. -/
theorem pointsOperand_of_all {s : State} {k : Nat} (hz : ∀ j, j < k → s.xEntry j ≠ 0#8)
    (hd : ∀ i j, i < j → j < k → s.xEntry i ≠ s.xEntry j) :
    pointsOperand s k = .ok ((List.range k).map fun j => (s.xEntry j).toNat) := by
  have hn : firstIn k (badPoint s) = none := by
    refine firstIn_eq_none.mpr fun j hj => ?_
    by_contra hb
    rcases badPoint_iff.mp (by simpa using hb) with h | ⟨i, hi, h⟩
    · exact hz j hj h
    · exact hd i j hi hj h
  simp [pointsOperand, hn]

/-- The point check names the first bad point. -/
theorem pointsOperand_of_first {s : State} {k j : Nat} (hj : j < k) (hbad : badPoint s j = true)
    (hgood : ∀ i, i < j → badPoint s i = false) :
    pointsOperand s k = .error ⟨.malformedShadow, Offset.xtab j⟩ := by
  have hs : firstIn k (badPoint s) = some j := firstIn_eq_some.mpr ⟨hj, hbad, hgood⟩
  simp [pointsOperand, hs]

/-- inRange of R66. -/
theorem State.inRange_iff {s : State} {base len : Nat} :
    s.inRange base len = true ↔ len = 0 ∨ base + len ≤ s.params.dmemSize := by
  simp [State.inRange]

theorem rangeOperand_of_inRange {s : State} {base len : Nat} {off : Word} (h : s.inRange base len = true) :
    rangeOperand s base len off = .ok () := by
  simp [rangeOperand, h]

theorem rangeOperand_of_outside {s : State} {base len : Nat} {off : Word} (h : s.inRange base len = false) :
    rangeOperand s base len off = .error ⟨.addressError, off⟩ := by
  simp [rangeOperand, h]

theorem stridedOperand_of_inRange {s : State} {m base stride len : Nat} {off : Word}
    (h : ∀ i, i < m → s.inRange (base + i * stride) len = true) : stridedOperand s m base stride len off = .ok () := by
  have hn : firstIn m (fun i => !s.inRange (base + i * stride) len) = none :=
    firstIn_eq_none.mpr fun j hj => by simp [h j hj]
  simp [stridedOperand, hn]

theorem stridedOperand_of_outside {s : State} {m base stride len i : Nat} {off : Word} (hi : i < m)
    (h : s.inRange (base + i * stride) len = false) :
    stridedOperand s m base stride len off = .error ⟨.addressError, off⟩ := by
  unfold stridedOperand
  cases hf : firstIn m fun i => !s.inRange (base + i * stride) len with
  | some _ => rfl
  | none =>
    have := firstIn_eq_none.mp hf i hi
    simp [h] at this

end Sys2Proof.Machine
end

