-- ==== Sys2Proof/Laws/Exec.lean ====
section
/-!
SUPPORT. What a step can do, said once: every command's meaning is a completion step of one outcome, and step is the turn
of one agent.
-/

namespace Sys2Proof.Machine

/-- Every meaning is the completion step of what the command performs. -/
theorem exec_is_finish (i : Instr) (s : State) : ∃ o, exec i s = finish s o := by
  cases i with
  | nop => exact ⟨.ok s, rfl⟩
  | rseed => exact ⟨performRseed s, rfl⟩
  | rnext => exact ⟨performRnext s, rfl⟩
  | rgen => exact ⟨performRgen s, rfl⟩
  | rmask => exact ⟨performRmask s, rfl⟩
  | gmod => exact ⟨performGmod s, rfl⟩
  | ginv => exact ⟨performGinv s, rfl⟩
  | gadd => exact ⟨performField fadd s, rfl⟩
  | gsub => exact ⟨performField fsub s, rfl⟩
  | gmul => exact ⟨performField fmul s, rfl⟩
  | peval => exact ⟨performPeval s, rfl⟩
  | pshare => exact ⟨performPshare s, rfl⟩
  | psharebuf => exact ⟨performPsharebuf s, rfl⟩
  | vsolve => exact ⟨performVsolve s, rfl⟩
  | vrecon => exact ⟨performVrecon s, rfl⟩
  | shide => exact ⟨performShide s, rfl⟩
  | sreveal => exact ⟨performSreveal s, rfl⟩

/-- The engine's step on a pending word is the completion step of some outcome. -/
theorem performWord_is_finish (c : Word) (s : State) : ∃ o, performWord c s = finish s o := by
  unfold performWord
  split
  · exact exec_is_finish _ s
  · exact ⟨.error ⟨.illegalCmd, c⟩, rfl⟩

/-- A step is one turn: of the agent the schedule names, or after its end of the engine while BUSY, else of the host. -/
theorem step_cases (s : State) :
    (∃ rest, s.schedule = .host :: rest ∧ step s = hostStep { s with schedule := rest }) ∨
      (∃ rest, s.schedule = .engine :: rest ∧ step s = engineStep { s with schedule := rest }) ∨
        (∃ rest, s.schedule = .powerOn :: rest ∧ step s = .next (State.powerOnReset { s with schedule := rest })) ∨
          (s.schedule = [] ∧ (∃ c, s.phase = .busy c) ∧ step s = engineStep s) ∨
            (s.schedule = [] ∧ s.phase = .idle ∧ step s = hostStep s) := by
  unfold step
  split
  · exact .inl ⟨_, ‹_›, rfl⟩
  · exact .inr (.inl ⟨_, ‹_›, rfl⟩)
  · exact .inr (.inr (.inl ⟨_, ‹_›, rfl⟩))
  · split
    · exact .inr (.inr (.inr (.inl ⟨‹_›, ⟨_, ‹_›⟩, rfl⟩)))
    · exact .inr (.inr (.inr (.inr ⟨‹_›, ‹_›, rfl⟩)))

/-- The step after withFetchWord performs the word. -/
theorem step_withFetchWord (s : State) (nbits w : Nat) :
    step (s.withFetchWord nbits w) = performWord (tableWord nbits w) (s.withFetchWord nbits w) := rfl

end Sys2Proof.Machine
end

