-- ==== Sys2Proof/Laws/PerInstr.lean ====
section
/-!
SUPPORT. The family of facts stated per command: its word has RSV = 0 and OP its opcode, and is a legal command word (R80, R82).
-/

namespace Sys2Proof.Laws.WordShape

/-- The command word of a well-formed command: OP its opcode, RSV 0, and legal (R80, R82). -/
def Statement (i : Instr) : Prop :=
  Instr.wellFormed i = true → opField (encode i) = opcode i ∧ rsvField (encode i) = 0#24 ∧ legalWord (encode i) = true

theorem nop : Statement .nop := by unfold Statement; decide
theorem rseed : Statement .rseed := by unfold Statement; decide
theorem rnext : Statement .rnext := by unfold Statement; decide
theorem rgen : Statement .rgen := by unfold Statement; decide
theorem rmask : Statement .rmask := by unfold Statement; decide
theorem gmod : Statement .gmod := by unfold Statement; decide
theorem ginv : Statement .ginv := by unfold Statement; decide
theorem gadd : Statement .gadd := by unfold Statement; decide
theorem gsub : Statement .gsub := by unfold Statement; decide
theorem gmul : Statement .gmul := by unfold Statement; decide
theorem peval : Statement .peval := by unfold Statement; decide
theorem pshare : Statement .pshare := by unfold Statement; decide
theorem psharebuf : Statement .psharebuf := by unfold Statement; decide
theorem vsolve : Statement .vsolve := by unfold Statement; decide
theorem vrecon : Statement .vrecon := by unfold Statement; decide
theorem shide : Statement .shide := by unfold Statement; decide
theorem sreveal : Statement .sreveal := by unfold Statement; decide

end Sys2Proof.Laws.WordShape
end

