-- ==== Sys2Proof/Laws/Storage.lean ====
section
/-!
SUPPORT. Every memory operation keeps the canonical form and lists no location that does not exist; and what the stores of
several entries or bytes leave, said once each.
-/

namespace Sys2Proof.Machine

/-- StorageCoherent looks at the tables, DMEM and the parameters only. -/
theorem StorageCoherent.congr {s t : State} (h : StorageCoherent s) (hx : t.xtab = s.xtab) (hy : t.ytab = s.ytab)
    (hc : t.coef = s.coef) (hd : t.dmem = s.dmem) (hp : t.params = s.params) : StorageCoherent t := by
  obtain ⟨h1, h2, h3, h4, h5, h6, h7, h8⟩ := h
  exact ⟨hx ▸ h1, hy ▸ h2, hc ▸ h3, hd ▸ h4, hx ▸ h5, hy ▸ h6, hc ▸ h7, hd ▸ hp ▸ h8⟩

theorem StorageCoherent.setX {s : State} (h : StorageCoherent s) {j : Nat} (v : Byte) (hj : j < 256) :
    StorageCoherent (s.setX j v) :=
  { h with xtab_wf := Memory.put_wf _ _ h.xtab_wf, xtab_below := Memory.put_below _ hj h.xtab_below }

theorem StorageCoherent.setY {s : State} (h : StorageCoherent s) {j : Nat} (v : Entry) (hj : j < 256) :
    StorageCoherent (s.setY j v) :=
  { h with ytab_wf := Memory.put_wf _ _ h.ytab_wf, ytab_below := Memory.put_below _ hj h.ytab_below }

theorem StorageCoherent.setCoef {s : State} (h : StorageCoherent s) {j : Nat} (v : Entry) (hj : j < 256) :
    StorageCoherent (s.setCoef j v) :=
  { h with coef_wf := Memory.put_wf _ _ h.coef_wf, coef_below := Memory.put_below _ hj h.coef_below }

theorem StorageCoherent.writeByte {s : State} (h : StorageCoherent s) {a : Nat} (v : Byte) (ha : a < s.params.dmemSize) :
    StorageCoherent (s.writeByte a v) :=
  { h with dmem_wf := Memory.put_wf _ _ h.dmem_wf, dmem_below := Memory.put_below _ ha h.dmem_below }

/-- MemWrite inside DMEM. -/
theorem StorageCoherent.memWrite {s : State} (h : StorageCoherent s) {a n : Nat} (v : Word)
    (ha : a + n ≤ s.params.dmemSize) : StorageCoherent (s.memWrite a n v) := by
  unfold State.memWrite
  refine (forUp_induct (fun _ (t : State) => StorageCoherent t ∧ t.params = s.params) ⟨h, rfl⟩
    fun i t hi ht => ⟨ht.1.writeByte _ ?_, ht.2⟩).1
  rw [ht.2]
  omega

/-- The free draw of a byte of an abandoned command's write set. -/
theorem StorageCoherent.scrambleByte {s : State} (h : StorageCoherent s) (a : Nat) :
    StorageCoherent (s.scrambleByte a) := by
  unfold State.scrambleByte
  split
  · exact StorageCoherent.writeByte (s := s.drawByte.2) (h.congr rfl rfl rfl rfl rfl) _ ‹_›
  · exact h

theorem StorageCoherent.scrambleBytes {s : State} (h : StorageCoherent s) (a len : Nat) :
    StorageCoherent (s.scrambleBytes a len) := by
  unfold State.scrambleBytes
  exact forUp_induct (fun _ (t : State) => StorageCoherent t) h fun i t _ ht => ht.scrambleByte _

theorem StorageCoherent.scrambleCoef {s : State} (h : StorageCoherent s) {k : Nat} (hk : k ≤ 256) :
    StorageCoherent (s.scrambleCoef k) := by
  unfold State.scrambleCoef
  exact forUp_induct (fun _ (t : State) => StorageCoherent t) h fun i t hi ht =>
    StorageCoherent.setCoef (s := t.drawEntry.2) (ht.congr rfl rfl rfl rfl rfl) _ (by omega)

theorem StorageCoherent.scrambleY {s : State} (h : StorageCoherent s) {n : Nat} (hn : n ≤ 256) :
    StorageCoherent (s.scrambleY n) := by
  unfold State.scrambleY
  exact forUp_induct (fun _ (t : State) => StorageCoherent t) h fun i t hi ht =>
    StorageCoherent.setY (s := t.drawEntry.2) (ht.congr rfl rfl rfl rfl rfl) _ (by omega)

theorem StorageCoherent.storeCoefs {s : State} (h : StorageCoherent s) {k : Nat} (c : List Nat) (hk : k ≤ 256) :
    StorageCoherent (s.storeCoefs k c) := by
  unfold State.storeCoefs
  exact forUp_induct (fun _ (t : State) => StorageCoherent t) h fun i t hi ht => ht.setCoef _ (by omega)

theorem StorageCoherent.storeValues {s : State} (h : StorageCoherent s) {n : Nat} (v : List Nat) (hn : n ≤ 256) :
    StorageCoherent (s.storeValues n v) := by
  unfold State.storeValues
  exact forUp_induct (fun _ (t : State) => StorageCoherent t) h fun i t hi ht => ht.setY _ (by omega)

/-- A strided store inside DMEM. -/
theorem StorageCoherent.storeStrided {s : State} (h : StorageCoherent s) {a stride m : Nat} (v : List Nat)
    (ha : ∀ i, i < m → a + i * stride < s.params.dmemSize) : StorageCoherent (s.storeStrided a stride m v) := by
  unfold State.storeStrided
  refine (forUp_induct (fun _ (t : State) => StorageCoherent t ∧ t.params = s.params) ⟨h, rfl⟩
    fun i t hi ht => ⟨ht.1.writeByte _ ?_, ht.2⟩).1
  rw [ht.2]
  exact ha i hi

theorem StorageCoherent.resetRegisters {s : State} (h : StorageCoherent s) : StorageCoherent s.resetRegisters :=
  h.congr rfl rfl rfl rfl rfl

/-- Nothing is listed after a power-on reset. -/
theorem powerOnReset_storageCoherent (s : State) : StorageCoherent s.powerOnReset :=
  ⟨.nil, .nil, .nil, .nil, nofun, nofun, nofun, nofun⟩

/-- The memory of a machine with the given parameters right after reset is in canonical form. -/
theorem resetWith_memory_wf (p : Params) : Memory.wf (State.resetWith p).dmem := .nil

/-! ### What the stores leave -/

/-- Storing coefficients changes COEF only. -/
theorem State.storeCoefs_eq (s : State) (k : Nat) (c : List Nat) :
    s.storeCoefs k c = { s with coef := (s.storeCoefs k c).coef } := by
  unfold State.storeCoefs
  refine forUp_induct (fun _ (t : State) => t = { s with coef := t.coef }) rfl fun i t _ ht => ?_
  conv_lhs => rw [ht]
  rfl

/-- COEF[j] after a store of k coefficients. -/
theorem State.coefEntry_storeCoefs (s : State) (k j : Nat) (c : List Nat) :
    (s.storeCoefs k c).coefEntry j = if j < k then BitVec.ofNat 9 (c.getD j 0) else s.coefEntry j := by
  unfold State.storeCoefs
  refine forUp_induct
    (fun m (t : State) => t.coefEntry j = if j < m then BitVec.ofNat 9 (c.getD j 0) else s.coefEntry j) ?_ ?_
  · simp
  · intro i t _ ht
    by_cases hj : j = i
    · subst hj
      simp
    · rw [State.coefEntry_setCoef_other _ _ hj, ht]
      by_cases hlt : j < i
      · rw [if_pos hlt, if_pos (by omega)]
      · rw [if_neg hlt, if_neg (by omega)]

/-- Storing values changes YTAB only. -/
theorem State.storeValues_eq (s : State) (n : Nat) (v : List Nat) :
    s.storeValues n v = { s with ytab := (s.storeValues n v).ytab } := by
  unfold State.storeValues
  refine forUp_induct (fun _ (t : State) => t = { s with ytab := t.ytab }) rfl fun i t _ ht => ?_
  conv_lhs => rw [ht]
  rfl

/-- YTAB[j] after a store of n values. -/
theorem State.yEntry_storeValues (s : State) (n j : Nat) (v : List Nat) :
    (s.storeValues n v).yEntry j = if j < n then BitVec.ofNat 9 (v.getD j 0) else s.yEntry j := by
  unfold State.storeValues
  refine forUp_induct
    (fun m (t : State) => t.yEntry j = if j < m then BitVec.ofNat 9 (v.getD j 0) else s.yEntry j) ?_ ?_
  · simp
  · intro i t _ ht
    by_cases hj : j = i
    · subst hj
      simp
    · rw [State.yEntry_setY_other _ _ hj, ht]
      by_cases hlt : j < i
      · rw [if_pos hlt, if_pos (by omega)]
      · rw [if_neg hlt, if_neg (by omega)]

/-- A strided store changes DMEM only. -/
theorem State.storeStrided_eq (s : State) (a stride m : Nat) (v : List Nat) :
    s.storeStrided a stride m v = { s with dmem := (s.storeStrided a stride m v).dmem } := by
  unfold State.storeStrided
  refine forUp_induct (fun _ (t : State) => t = { s with dmem := t.dmem }) rfl fun i t _ ht => ?_
  conv_lhs => rw [ht]
  rfl

/-- A byte that is none of the stored ones reads as before. -/
theorem State.readByte_storeStrided_outside (s : State) {a stride m b : Nat} (v : List Nat)
    (h : ∀ i, i < m → b ≠ a + i * stride) : (s.storeStrided a stride m v).readByte b = s.readByte b := by
  unfold State.storeStrided
  refine forUp_induct (fun _ (t : State) => t.readByte b = s.readByte b) rfl fun i t hi ht => ?_
  rw [State.readByte_writeByte_other _ _ (h i hi), ht]

/-- A stored byte, when no two of the stored ones are the same place. -/
theorem State.readByte_storeStrided_at (s : State) {a stride m j : Nat} (v : List Nat) (hs : 0 < stride) (hj : j < m) :
    (s.storeStrided a stride m v).readByte (a + j * stride) = BitVec.ofNat 8 (v.getD j 0) := by
  unfold State.storeStrided
  refine forUp_induct
    (fun n (t : State) => j < n → t.readByte (a + j * stride) = BitVec.ofNat 8 (v.getD j 0)) ?_ ?_ hj
  · intro h
    exact absurd h (Nat.not_lt_zero j)
  · intro i t _ ht hlt
    by_cases hji : j = i
    · subst hji
      simp
    · rw [State.readByte_writeByte_other, ht (by omega)]
      intro heq
      exact hji (Nat.eq_of_mul_eq_mul_right hs (Nat.add_left_cancel heq))

end Sys2Proof.Machine
end

