-- ==== Sys2Proof/Laws/Perform.lean ====
section
/-!
SUPPORT. What each command's pseudocode can do when it raises no error, said once per command: the fields it may change, the
entries and bytes it may change, and that it keeps the storage coherent.
-/

namespace Sys2Proof.Machine

/-- The engine's part of a state that RGEN and RMASK may change: S, and the bytes of [a, a+len). -/
structure OnlyMask (s t : State) (a len : Nat) : Prop where
  rest : ∃ x m, t = { s with prng := x, dmem := m }
  bytes : ∀ b, (b < a ∨ a + len ≤ b) → t.readByte b = s.readByte b
  coherent : StorageCoherent s → StorageCoherent t

/-- A state that differs from another in DMEM only, outside no byte of the set. -/
structure OnlyBytes (s t : State) (inside : Nat → Prop) : Prop where
  rest : ∃ m, t = { s with dmem := m }
  bytes : ∀ b, ¬ inside b → t.readByte b = s.readByte b
  coherent : StorageCoherent s → StorageCoherent t

theorem OnlyBytes.refl (s : State) (inside : Nat → Prop) : OnlyBytes s s inside := ⟨⟨_, rfl⟩, fun _ _ => rfl, id⟩

theorem OnlyBytes.trans {s t u : State} {inside : Nat → Prop} (h : OnlyBytes s t inside) (h' : OnlyBytes t u inside) :
    OnlyBytes s u inside := by
  refine ⟨?_, fun b hb => (h'.bytes b hb).trans (h.bytes b hb), fun hc => h'.coherent (h.coherent hc)⟩
  obtain ⟨m, rfl⟩ := h.rest
  obtain ⟨m', rfl⟩ := h'.rest
  exact ⟨m', rfl⟩

theorem OnlyBytes.params {s t : State} {inside : Nat → Prop} (h : OnlyBytes s t inside) : t.params = s.params := by
  obtain ⟨m, rfl⟩ := h.rest
  rfl

/-- One byte written, inside the set and inside DMEM. -/
theorem OnlyBytes.write (s : State) {inside : Nat → Prop} {a : Nat} (v : Byte) (hin : inside a)
    (ha : a < s.params.dmemSize) : OnlyBytes s (s.writeByte a v) inside :=
  ⟨⟨_, rfl⟩, fun _ hb => s.readByte_writeByte_other v fun h => hb (h ▸ hin), fun hc => hc.writeByte v ha⟩

/-- A loop each of whose passes writes inside the set. -/
theorem OnlyBytes.loop {s : State} {inside : Nat → Prop} {n : Nat} {body : Nat → State → State}
    (h : ∀ i t, i < n → t.params = s.params → OnlyBytes t (body i t) inside) : OnlyBytes s (forUp n body s) inside :=
  forUp_induct (fun _ t => OnlyBytes s t inside) (.refl s inside) fun i t hi ht => ht.trans (h i t hi ht.params)

/-- A strided store inside the set and inside DMEM. -/
theorem OnlyBytes.storeStrided (s : State) {inside : Nat → Prop} {a stride m : Nat} (v : List Nat)
    (hin : ∀ i, i < m → inside (a + i * stride)) (ha : ∀ i, i < m → a + i * stride < s.params.dmemSize) :
    OnlyBytes s (s.storeStrided a stride m v) inside := by
  unfold State.storeStrided
  exact .loop fun i t hi hp => .write t _ (hin i hi) (hp ▸ ha i hi)

/-! ### PRNG and mask -/

/-- RNEXT raises no error. -/
theorem performRnext_eq (s : State) :
    performRnext s = .ok (s.prngStep.setRes0 (prngByte s.prngStep.prng).toNat) := rfl

theorem State.prngStep_eq (s : State) : s.prngStep = { s with prng := prngNext s.prng } := rfl

theorem State.reseed_eq (s : State) (seed : Seed) :
    s.reseed seed = { s with prng := seedState s.params.seedExt seed } := rfl

theorem performRseed_ok {s t : State} (h : performRseed s = .ok t) : ∃ seed, t = s.reseed seed := by
  obtain ⟨seed, _, h⟩ := Except.bind_eq_ok.mp h
  exact ⟨seed, (Except.ok.inj h).symm⟩

theorem performRnext_ok {s t : State} (h : performRnext s = .ok t) : ∃ x v, t = { s with prng := x, res0 := v } := by
  rw [performRnext_eq] at h
  rw [← Except.ok.inj h, State.prngStep_eq]
  exact ⟨prngNext s.prng, _, rfl⟩

/-- A loop of RGEN or RMASK: each pass sets S and writes the one byte a + i. -/
theorem OnlyMask.loop {s : State} {a len : Nat} {body : Nat → State → State} (seed : PrngState)
    (hbody : ∀ i t, ∃ x v, body i t = (t.setPrng x).writeByte (a + i) v) (hr : s.inRange a len = true) :
    OnlyMask s (forUp len body (s.setPrng seed)) a len := by
  refine forUp_induct (fun _ t => OnlyMask s t a len)
    ⟨⟨_, _, rfl⟩, fun _ _ => rfl, fun hc => hc.congr rfl rfl rfl rfl rfl⟩ fun i t hi ht => ?_
  obtain ⟨y, v, hv⟩ := hbody i t
  have hp : t.params = s.params := by
    obtain ⟨x, m, rfl⟩ := ht.rest
    rfl
  have hlt : a + i < s.params.dmemSize := by
    rcases State.inRange_iff.mp hr with h | h <;> omega
  rw [hv]
  refine ⟨?_, fun b hb => ?_, fun hc => ?_⟩
  · obtain ⟨x, m, rfl⟩ := ht.rest
    exact ⟨_, _, rfl⟩
  · rw [State.readByte_writeByte_other _ _ (by omega)]
    exact (State.readByte_congr (s := t) rfl rfl b).trans (ht.bytes b hb)
  · have hst : StorageCoherent (t.setPrng y) := (ht.coherent hc).congr rfl rfl rfl rfl rfl
    exact hst.writeByte v (by rw [State.setPrng_params, hp]; exact hlt)

theorem rangeOperand_eq_ok {s : State} {base len : Nat} {off : Word} {u : Unit}
    (h : rangeOperand s base len off = .ok u) : s.inRange base len = true := by
  cases hr : s.inRange base len with
  | true => rfl
  | false => simp [rangeOperand_of_outside hr] at h

theorem performRgen_ok {s t : State} (h : performRgen s = .ok t) : OnlyMask s t s.arg0.toNat s.arg2.toNat := by
  obtain ⟨seed, _, h⟩ := Except.bind_eq_ok.mp h
  obtain ⟨_, hr, h⟩ := Except.bind_eq_ok.mp h
  cases h
  exact OnlyMask.loop _ (fun i u => ⟨prngNext u.prng, _, rfl⟩) (rangeOperand_eq_ok hr)

theorem performRmask_ok {s t : State} (h : performRmask s = .ok t) : OnlyMask s t s.arg0.toNat s.arg2.toNat := by
  obtain ⟨seed, _, h⟩ := Except.bind_eq_ok.mp h
  obtain ⟨_, hr, h⟩ := Except.bind_eq_ok.mp h
  cases h
  exact OnlyMask.loop _ (fun i u => ⟨prngNext u.prng, _, rfl⟩) (rangeOperand_eq_ok hr)

/-! ### GF(257) arithmetic -/

theorem performGmod_ok {s t : State} (h : performGmod s = .ok t) : t = { s with res0 := t.res0 } := by
  cases h
  rfl

theorem performGinv_ok {s t : State} (h : performGinv s = .ok t) : t = { s with res0 := t.res0 } := by
  obtain ⟨a, _, h⟩ := Except.bind_eq_ok.mp h
  split at h
  · cases h
  · cases h
    rfl

theorem performField_ok {op : Nat → Nat → Nat} {s t : State} (h : performField op s = .ok t) :
    t = { s with res0 := t.res0 } := by
  obtain ⟨a, _, h⟩ := Except.bind_eq_ok.mp h
  obtain ⟨b, _, h⟩ := Except.bind_eq_ok.mp h
  cases h
  rfl

/-! ### Polynomial evaluator and sharing -/

theorem thresholdOperand_eq_ok {s : State} {k : Nat} (h : thresholdOperand s = .ok k) :
    k = s.cfgK.toNat ∧ 2 ≤ k ∧ k ≤ s.params.kMax := by
  unfold thresholdOperand at h
  split at h
  · cases h
  · cases h
    exact ⟨rfl, by omega, by omega⟩

theorem shareOperand_eq_ok {s : State} {kn : Nat × Nat} (h : shareOperand s = .ok kn) :
    kn = (s.cfgK.toNat, s.cfgN.toNat) ∧ 2 ≤ s.cfgK.toNat ∧ s.cfgK.toNat ≤ s.params.kMax ∧
      s.cfgK.toNat ≤ s.cfgN.toNat := by
  unfold shareOperand at h
  split at h
  · cases h
  · cases h
    exact ⟨rfl, by omega, by omega, by omega⟩

theorem stridedOperand_eq_ok {s : State} {m base stride len : Nat} {off : Word} {u : Unit}
    (h : stridedOperand s m base stride len off = .ok u) : ∀ i, i < m → s.inRange (base + i * stride) len = true := by
  intro i hi
  cases hr : s.inRange (base + i * stride) len with
  | true => rfl
  | false => simp [stridedOperand_of_outside hi hr] at h

theorem performPeval_ok {s t : State} (h : performPeval s = .ok t) : t = { s with res0 := t.res0 } := by
  obtain ⟨k, _, h⟩ := Except.bind_eq_ok.mp h
  obtain ⟨x, _, h⟩ := Except.bind_eq_ok.mp h
  obtain ⟨c, _, h⟩ := Except.bind_eq_ok.mp h
  cases h
  rfl

/-- What PSHARE may change: COEF[0..k), YTAB[0..n), REPAIRS and RPR. -/
theorem performPshare_ok {s t : State} (h : performPshare s = .ok t) :
    t = { s with
      coef := t.coef
      ytab := t.ytab
      repairs := t.repairs
      status := { s.status with rpr := t.status.rpr } } ∧
    (∀ j, s.cfgK.toNat ≤ j → t.coefEntry j = s.coefEntry j) ∧
    (∀ j, s.cfgN.toNat ≤ j → t.yEntry j = s.yEntry j) ∧ (StorageCoherent s → StorageCoherent t) := by
  obtain ⟨kn, hkn, h⟩ := Except.bind_eq_ok.mp h
  obtain ⟨hkn, _, _, _⟩ := shareOperand_eq_ok hkn
  subst hkn
  obtain ⟨c, _, h⟩ := Except.bind_eq_ok.mp h
  dsimp only at h
  generalize share c s.cfgN.toNat = p at h
  obtain ⟨c', v, r⟩ := p
  cases h
  have hu := State.storeCoefs_eq s s.cfgK.toNat c'
  have hw := State.storeValues_eq (s.storeCoefs s.cfgK.toNat c') s.cfgN.toNat v
  have hk := s.cfgK.isLt
  have hn := s.cfgN.isLt
  have hco (j : Nat) := State.coefEntry_storeCoefs s s.cfgK.toNat j c'
  have hyv (j : Nat) := State.yEntry_storeValues (s.storeCoefs s.cfgK.toNat c') s.cfgN.toNat j v
  have hst (hc : StorageCoherent s) : StorageCoherent ((s.storeCoefs s.cfgK.toNat c').storeValues s.cfgN.toNat v) :=
    (hc.storeCoefs c' (by omega)).storeValues v (by omega)
  generalize (s.storeCoefs s.cfgK.toNat c').storeValues s.cfgN.toNat v = w at *
  generalize s.storeCoefs s.cfgK.toNat c' = u at *
  obtain ⟨mu, rfl⟩ : ∃ m, u = { s with coef := m } := ⟨_, hu⟩
  obtain ⟨mw, rfl⟩ : ∃ m, w = { s with coef := mu, ytab := m } := ⟨_, hw⟩
  refine ⟨rfl, fun j hj => ?_, fun j hj => ?_, fun hc => (hst hc).congr rfl rfl rfl rfl rfl⟩
  · exact (hco j).trans (if_neg (by omega))
  · exact (hyv j).trans (if_neg (by omega))

/-- What PSHAREBUF may change: the source groups, the shadow buffers, REPAIRS and RPR. -/
theorem performPsharebuf_ok {s t : State} (h : performPsharebuf s = .ok t) :
    t = { s with
      dmem := t.dmem
      repairs := t.repairs
      status := { s.status with rpr := t.status.rpr } } ∧
    (∀ b, ¬ ((s.arg1.toNat ≤ b ∧ b < s.arg1.toNat + s.arg2.toNat * s.cfgK.toNat) ∨
        ∃ m, m < s.cfgN.toNat ∧ s.arg0.toNat + m * s.arg3.toNat ≤ b ∧
          b < s.arg0.toNat + m * s.arg3.toNat + s.arg2.toNat) → t.readByte b = s.readByte b) ∧
    (StorageCoherent s → StorageCoherent t) := by
  obtain ⟨kn, hkn, h⟩ := Except.bind_eq_ok.mp h
  obtain ⟨hkn, _, _, _⟩ := shareOperand_eq_ok hkn
  subst hkn
  obtain ⟨_, hd, h⟩ := Except.bind_eq_ok.mp h
  obtain ⟨_, hp, h⟩ := Except.bind_eq_ok.mp h
  have hd := stridedOperand_eq_ok hd
  have hp := rangeOperand_eq_ok hp
  set inside : Nat → Prop := fun b =>
    (s.arg1.toNat ≤ b ∧ b < s.arg1.toNat + s.arg2.toNat * s.cfgK.toNat) ∨
      ∃ m, m < s.cfgN.toNat ∧ s.arg0.toNat + m * s.arg3.toNat ≤ b ∧
        b < s.arg0.toNat + m * s.arg3.toNat + s.arg2.toNat
  have hx : OnlyBytes s (forUp s.arg2.toNat
      (sharePass s.cfgK.toNat s.cfgN.toNat s.arg0.toNat s.arg1.toNat s.arg3.toNat) (s, 0)).1 inside := by
    refine forUp_induct (fun _ (y : State × Nat) => OnlyBytes s y.1 inside) (.refl s inside) fun j y hj hy => ?_
    have hyp := hy.params
    show OnlyBytes s (sharePass _ _ _ _ _ j y).1 inside
    unfold sharePass
    obtain ⟨c', v, r⟩ := share (y.1.groupAt (s.arg1.toNat + j * s.cfgK.toNat) s.cfgK.toNat) s.cfgN.toNat
    refine hy.trans (.trans (t := y.1.storeStrided (s.arg1.toNat + j * s.cfgK.toNat) 1 s.cfgK.toNat c') ?_ ?_)
    · have hle : (j + 1) * s.cfgK.toNat ≤ s.arg2.toNat * s.cfgK.toNat := Nat.mul_le_mul_right _ hj
      rw [Nat.succ_mul] at hle
      refine .storeStrided y.1 _ (fun i hi => .inl ⟨by omega, by omega⟩) fun i hi => ?_
      rw [hyp]
      rcases State.inRange_iff.mp hp with hz | hz <;> omega
    · refine .storeStrided _ _ (fun i hi => .inr ⟨i, hi, by omega, by omega⟩) fun i hi => ?_
      rw [State.storeStrided_eq]
      show _ < y.1.params.dmemSize
      rw [hyp]
      rcases State.inRange_iff.mp (hd i hi) with hz | hz <;> omega
  dsimp only at h
  generalize forUp s.arg2.toNat
    (sharePass s.cfgK.toNat s.cfgN.toNat s.arg0.toNat s.arg1.toNat s.arg3.toNat) (s, 0) = x at h hx
  obtain ⟨u, r⟩ := x
  cases h
  obtain ⟨m, rfl⟩ : ∃ m, u = { s with dmem := m } := hx.rest
  exact ⟨rfl, fun b hb => hx.bytes b hb, fun hc => (hx.coherent hc).congr rfl rfl rfl rfl rfl⟩

/-! ### Vandermonde solver -/

/-- What VSOLVE may change: COEF[0..k). -/
theorem performVsolve_ok {s t : State} (h : performVsolve s = .ok t) :
    t = { s with coef := t.coef } ∧ (∀ j, s.cfgK.toNat ≤ j → t.coefEntry j = s.coefEntry j) ∧
      (StorageCoherent s → StorageCoherent t) := by
  obtain ⟨k, hk, h⟩ := Except.bind_eq_ok.mp h
  obtain ⟨hk, _, _⟩ := thresholdOperand_eq_ok hk
  subst hk
  obtain ⟨x, _, h⟩ := Except.bind_eq_ok.mp h
  obtain ⟨y, _, h⟩ := Except.bind_eq_ok.mp h
  obtain ⟨a, _, h⟩ := Except.bind_eq_ok.mp h
  cases h
  refine ⟨State.storeCoefs_eq _ _ _, fun j hj => ?_, fun hc => hc.storeCoefs a ?_⟩
  · rw [State.coefEntry_storeCoefs, if_neg (by omega)]
  · have := s.cfgK.isLt
    omega

/-- What VRECON may change: the output bytes and WRAP. -/
theorem performVrecon_ok {s t : State} (h : performVrecon s = .ok t) :
    t = { s with dmem := t.dmem, status := { s.status with wrap := t.status.wrap } } ∧
    (∀ b, ¬ (s.arg0.toNat ≤ b ∧ b < s.arg0.toNat + s.arg2.toNat * s.cfgK.toNat) → t.readByte b = s.readByte b) ∧
    (StorageCoherent s → StorageCoherent t) := by
  obtain ⟨k, hk, h⟩ := Except.bind_eq_ok.mp h
  obtain ⟨hk, _, _⟩ := thresholdOperand_eq_ok hk
  subst hk
  obtain ⟨x, _, h⟩ := Except.bind_eq_ok.mp h
  obtain ⟨_, ho, h⟩ := Except.bind_eq_ok.mp h
  obtain ⟨_, _, h⟩ := Except.bind_eq_ok.mp h
  obtain ⟨z, hz, h⟩ := Except.bind_eq_ok.mp h
  have ho := rangeOperand_eq_ok ho
  cases h
  set inside : Nat → Prop := fun b => s.arg0.toNat ≤ b ∧ b < s.arg0.toNat + s.arg2.toNat * s.cfgK.toNat
  have hx : OnlyBytes s z.1 inside := by
    refine forUpE_induct (fun _ (y : State × Bool) => OnlyBytes s y.1 inside) (.refl s inside)
      (fun p y y' hp hy hy' => ?_) hz
    obtain ⟨a, _, hy'⟩ := Except.bind_eq_ok.mp hy'
    cases hy'
    have hyp := hy.params
    have hle : (p + 1) * s.cfgK.toNat ≤ s.arg2.toNat * s.cfgK.toNat := Nat.mul_le_mul_right _ hp
    rw [Nat.succ_mul] at hle
    refine hy.trans (.storeStrided y.1 _ (fun i hi => ⟨by omega, by omega⟩) fun i hi => ?_)
    rw [hyp]
    rcases State.inRange_iff.mp ho with hz | hz <;> omega
  obtain ⟨u, r⟩ := z
  obtain ⟨m, rfl⟩ : ∃ m, u = { s with dmem := m } := hx.rest
  exact ⟨rfl, fun b hb => hx.bytes b hb, fun hc => (hx.coherent hc).congr rfl rfl rfl rfl rfl⟩

/-! ### Stego -/

/-- What SHIDE may change: the carrier bytes. -/
theorem performShide_ok {s t : State} (h : performShide s = .ok t) :
    OnlyBytes s t fun b => s.arg0.toNat ≤ b ∧ b < s.arg0.toNat + 8 * s.arg2.toNat := by
  obtain ⟨_, hc, h⟩ := Except.bind_eq_ok.mp h
  obtain ⟨_, _, h⟩ := Except.bind_eq_ok.mp h
  have hc := rangeOperand_eq_ok hc
  cases h
  refine .loop fun i u hi hp => ?_
  unfold hidePass
  refine .loop fun j w hj hq => .write w _ ⟨by omega, by omega⟩ ?_
  rw [hq, hp]
  rcases State.inRange_iff.mp hc with hz | hz <;> omega

/-- What SREVEAL may change: the output bytes. -/
theorem performSreveal_ok {s t : State} (h : performSreveal s = .ok t) :
    OnlyBytes s t fun b => s.arg0.toNat ≤ b ∧ b < s.arg0.toNat + s.arg2.toNat := by
  obtain ⟨_, hd, h⟩ := Except.bind_eq_ok.mp h
  obtain ⟨_, _, h⟩ := Except.bind_eq_ok.mp h
  have hd := rangeOperand_eq_ok hd
  cases h
  refine .loop fun i u hi hp => .write u _ ⟨by omega, by omega⟩ ?_
  rw [hp]
  rcases State.inRange_iff.mp hd with hz | hz <;> omega

end Sys2Proof.Machine
end

