-- ==== Sys2Proof/Machine/Assembler.lean ====
section
/-!
DEFINITION. The text form of a host script (spec 30_encoding.md R87, R88): from lines of text to statements. One statement a
line, a label before it or alone, `;` begins a comment. A line that is no statement is rejected by its number. Variables
and labels are numbered by their first appearance (notes/assumptions/11.md); what R87 and R88 leave open of the text is
notes/assumptions/22.md, and of its characters notes/assumptions/23.md.
-/

namespace Sys2Proof

/-- The pieces a line is made of. -/
inductive Token where
  | name (cs : List Char)
  | num (n : Nat)
  | comma
  | colon
  | equals
  | arrow
  | lpar
  | rpar
deriving DecidableEq, Repr

/-- Why a text is no script: the first bad line, counted from 0. -/
inductive AsmError where
  /-- The line holds a character or a number that no statement has. -/
  | badToken (line : Nat)
  /-- The line's pieces form no statement of R87 or R88. -/
  | badStatement (line : Nat)
deriving DecidableEq, Repr

/-- The names met so far; a name's number is its place. -/
structure Names where
  vars : List (List Char)
  labels : List (List Char)
deriving DecidableEq, Repr

namespace Asm

/-! ### Characters and numbers -/

/-- A character of a name or a number: an ASCII letter, an ASCII digit or `_`. R87 does not say which characters a variable or
label name has; a line with any other is rejected. DESIGN CHOICE (notes/assumptions/23.md). -/
def isWordChar (c : Char) : Bool := c.isAlphanum || c == '_'

/-- The value of a digit, to base 16, its letters in either case (notes/assumptions/23.md). -/
def digit (c : Char) : Option Nat :=
  if '0' ≤ c ∧ c ≤ '9' then some (c.toNat - '0'.toNat)
  else if 'a' ≤ c ∧ c ≤ 'f' then some (c.toNat - 'a'.toNat + 10)
  else if 'A' ≤ c ∧ c ≤ 'F' then some (c.toNat - 'A'.toNat + 10)
  else none

/-- There is a digit, and every `_` stands between two of them; before says whether a digit stands just before. R87 says only that
`_` separates digits: 5_, 1__0, 0x_5 and 0x_ are rejected. DESIGN CHOICE (notes/assumptions/23.md). -/
def separated : Bool → List Char → Bool
  | before, [] => before
  | before, c :: cs => if c = '_' then before && separated false cs else separated true cs

/-- Digits in a base, the `_` that separate them ignored (R87). -/
def digits (base : Nat) : Nat → List Char → Option Nat
  | n, [] => some n
  | n, c :: cs =>
    if c = '_' then digits base n cs
    else
      match digit c with
      | some d => if d < base then digits base (n * base + d) cs else none
      | none => none

/-- The number that digits and the `_` between them spell in a base; none where they spell none. -/
def spelled (base : Nat) (cs : List Char) : Option Nat := if separated false cs then digits base 0 cs else none

/-- A number: decimal, or hexadecimal after 0x (R87). -/
def number (cs : List Char) : Option Nat :=
  match cs with
  | '0' :: 'x' :: ds => spelled 16 ds
  | _ => spelled 10 cs

/-- A finished run of word characters, most recent first: nothing, a number, or a name, which does not begin with a digit.
DESIGN CHOICE (notes/assumptions/23.md). -/
def flush (acc : List Char) : Option (List Token) :=
  match acc.reverse with
  | [] => some []
  | c :: cs => if c.isDigit then (number (c :: cs)).map fun n => [.num n] else some [.name (c :: cs)]

/-- The tokens of a line up to its comment; acc holds the word characters read so far. White space ends a token and is needed only
between two words. DESIGN CHOICE (notes/assumptions/23.md). -/
def lex : List Char → List Char → Option (List Token)
  | [], acc => flush acc
  | '-' :: '>' :: cs, acc => do pure ((← flush acc) ++ .arrow :: (← lex cs []))
  | c :: cs, acc =>
    if isWordChar c then lex cs (c :: acc)
    else if c = ';' then flush acc
    else if c.isWhitespace then do pure ((← flush acc) ++ (← lex cs []))
    else if c = ',' then do pure ((← flush acc) ++ .comma :: (← lex cs []))
    else if c = ':' then do pure ((← flush acc) ++ .colon :: (← lex cs []))
    else if c = '=' then do pure ((← flush acc) ++ .equals :: (← lex cs []))
    else if c = '(' then do pure ((← flush acc) ++ .lpar :: (← lex cs []))
    else if c = ')' then do pure ((← flush acc) ++ .rpar :: (← lex cs []))
    else none

/-! ### Names and symbols -/

/-- The entry of a table of words. -/
def lookup {α : Type} (table : List (String × α)) (cs : List Char) : Option α :=
  (table.find? fun p => p.1.toList == cs).map (·.2)

/-- The symbols of the register block (R87). -/
def registerSymbols : List (String × Word) :=
  [("ID", Offset.id), ("CTRL", Offset.ctrl), ("STATUS", Offset.status), ("CMD", Offset.cmd), ("ARG0", Offset.arg0),
   ("ARG1", Offset.arg1), ("ARG2", Offset.arg2), ("ARG3", Offset.arg3), ("RES0", Offset.res0), ("CFG", Offset.cfg),
   ("PRNG_LO", Offset.prngLo), ("PRNG_HI", Offset.prngHi), ("REPAIRS", Offset.repairs), ("ERRINFO", Offset.errinfo),
   ("PARAM", Offset.param), ("DMEMSZ", Offset.dmemsz)]

/-- The indexed symbols: where each begins and how far apart its offsets are (R87). -/
def indexedSymbols : List (String × Nat × Nat) :=
  [("XTAB", 0x400, 4), ("YTAB", 0x800, 4), ("COEF", 0xC00, 4), ("DMEM", Config.dmemOff, 1)]

/-- Every command, by its mnemonic in capitals (R82, R88). -/
def commandNames : List (String × Instr) :=
  [Instr.nop, .rseed, .rnext, .rgen, .rmask, .gmod, .ginv, .gadd, .gsub, .gmul, .peval, .pshare, .psharebuf, .vsolve,
    .vrecon, .shide, .sreveal].map fun i => (mnemonic i, i)

/-- The commands with a scalar shorthand and how many arguments it takes (R88). -/
def shorthands : List (String × Instr × Nat) :=
  [("GINV", .ginv, 1), ("GMOD", .gmod, 1), ("GADD", .gadd, 2), ("GSUB", .gsub, 2), ("GMUL", .gmul, 2), ("RSEED", .rseed, 1),
   ("PEVAL", .peval, 1)]

/-- The width of W, WH and WB. -/
def writeWidths : List (String × Width) := [("W", .w32), ("WH", .w16), ("WB", .w8)]

/-- The width of R, RH and RB. -/
def readWidths : List (String × Width) := [("R", .w32), ("RH", .w16), ("RB", .w8)]

/-- The number of a name in a list of names, which it joins if it is new. -/
def intern (names : List (List Char)) (cs : List Char) : Nat × List (List Char) :=
  match names.findIdx? (· == cs) with
  | some i => (i, names)
  | none => (names.length, names ++ [cs])

/-- A variable's number. -/
def varOf (n : Names) (cs : List Char) : Nat × Names :=
  ((intern n.vars cs).1, { n with vars := (intern n.vars cs).2 })

/-- A named label's number: even, as the fresh labels of R88 are odd. -/
def labelOf (n : Names) (cs : List Char) : Nat × Names :=
  (2 * (intern n.labels cs).1, { n with labels := (intern n.labels cs).2 })

/-- The fresh label of the POLL of a line (R88). -/
def freshLabel (line : Nat) : Nat := 2 * line + 1

/-! ### Operands -/

/-- A number of 32 bits; a larger one is no value and no offset. DESIGN CHOICE (notes/assumptions/22.md). -/
def word (n : Nat) : Option Word := if n < 2 ^ 32 then some (BitVec.ofNat 32 n) else none

/-- A number, and the tokens after it: its digits, or a symbol of the offset space in its place, whose index is a number
too (R87). -/
def numeral : List Token → Option (Nat × List Token)
  | .num n :: rest => some (n, rest)
  | .name cs :: .lpar :: rest =>
    match lookup indexedSymbols cs, numeral rest with
    | some (base, step), some (j, .rpar :: rest) => some (base + step * j, rest)
    | _, _ => none
  | .name cs :: rest => (lookup registerSymbols cs).map fun o => (o.toNat, rest)
  | _ => none

/-- A number with nothing after it. -/
def wholeNumeral (ts : List Token) : Option Nat :=
  match numeral ts with
  | some (n, []) => some n
  | _ => none

/-- An offset, and the tokens after it (R87). -/
def offset (ts : List Token) : Option (Word × List Token) := do
  let (n, rest) ← numeral ts
  pure (← word n, rest)

/-- A value: a number, or a script variable (R87). A name that is a symbol of the offset space is the symbol here. DESIGN
CHOICE (notes/assumptions/22.md). -/
def value (n : Names) (ts : List Token) : Option (Value × Names) :=
  match wholeNumeral ts, ts with
  | some v, _ => (word v).map fun x => (.num x, n)
  | none, [.name cs] => some (.var (varOf n cs).1, (varOf n cs).2)
  | none, _ => none

/-- The operands of a statement: what stands between its commas. -/
def operands : List Token → List (List Token)
  | [] => [[]]
  | .comma :: ts => [] :: operands ts
  | t :: ts =>
    match operands ts with
    | o :: os => (t :: o) :: os
    | [] => [[t]]

/-- Every operand as a value. -/
def values (n : Names) : List (List Token) → Option (List Value × Names)
  | [] => some ([], n)
  | ts :: rest => do
    let (v, n) ← value n ts
    let (vs, n) ← values n rest
    pure (v :: vs, n)

/-! ### Statements -/

/-- W, WH, WB: an offset and a value (R87). -/
def writeStmt (n : Names) (w : Width) (ts : List Token) : Option (List Stmt × Names) :=
  match operands ts with
  | [o, v] => do
    let off ← word (← wholeNumeral o)
    let (v, n) ← value n v
    pure ([.write w off v], n)
  | _ => none

/-- R, RH, RB: an offset, an arrow and a variable (R87). -/
def readStmt (n : Names) (w : Width) (ts : List Token) : Option (List Stmt × Names) := do
  let (off, rest) ← offset ts
  match rest with
  | [.arrow, .name x] => pure ([.read w off (varOf n x).1], (varOf n x).2)
  | _ => none

/-- BIT: a variable, a bit number and a label (R87). -/
def bitStmt (n : Names) (ts : List Token) : Option (List Stmt × Names) :=
  match operands ts with
  | [[.name x], b, [.name l]] => do
    let b ← wholeNumeral b
    pure ([.bit (varOf n x).1 b (labelOf (varOf n x).2 l).1], (labelOf (varOf n x).2 l).2)
  | _ => none

/-- EXPECT: a variable and a value (R87). -/
def expectStmt (n : Names) (ts : List Token) : Option (List Stmt × Names) :=
  match ts with
  | .name x :: .equals :: v => (value (varOf n x).2 v).map fun p => ([.expect (varOf n x).1 p.1], p.2)
  | _ => none

/-- SETKN: two numbers whose (n << 8) | k fits 32 bits; otherwise the line is rejected (R88). DESIGN CHOICE
(notes/assumptions/22.md). -/
def setKNStmt (n : Names) (ts : List Token) : Option (List Stmt × Names) :=
  match operands ts with
  | [k, m] => do
    let k ← wholeNumeral k
    let m ← wholeNumeral m
    let _ ← word (Pseudo.setKNValue k m)
    pure (Pseudo.setKN k m, n)
  | _ => none

/-- LOADB: a DMEM address and the values of the bytes from it on, all at 32-bit offsets (R88). -/
def loadBStmt (n : Names) (ts : List Token) : Option (List Stmt × Names) :=
  match operands ts with
  | a :: v :: vs => do
    let a ← wholeNumeral a
    let (vs, n) ← values n (v :: vs)
    let _ ← word (Config.dmemOff + a + (vs.length - 1))
    pure (Pseudo.loadB a vs, n)
  | _ => none

/-- A scalar shorthand with its number of arguments (R88). -/
def scalarStmt (n : Names) (line : Nat) (op : List Char) (ts : List Token) : Option (List Stmt × Names) := do
  let (i, count) ← lookup shorthands op
  let (vs, n) ← values n (operands ts)
  if vs.length = count then pure (Pseudo.scalar i vs (freshLabel line), n) else none

/-- A statement other than a bus access (R87, R88). -/
def otherStmt (n : Names) (line : Nat) (op : List Char) (ts : List Token) : Option (List Stmt × Names) :=
  if op = "BIT".toList then bitStmt n ts
  else if op = "EXPECT".toList then expectStmt n ts
  else if op = "J".toList then
    match ts with
    | [.name l] => some ([.jump (labelOf n l).1], (labelOf n l).2)
    | _ => none
  else if op = "END".toList then if ts = [] then some ([.stop], n) else none
  else if op = "POLL".toList then if ts = [] then some (Pseudo.poll (freshLabel line), n) else none
  else if op = "RUN".toList then
    match ts with
    | [.name c] => (lookup commandNames c).map fun i => (Pseudo.run i (freshLabel line), n)
    | _ => none
  else if op = "ARGS".toList then do
    let (vs, n) ← values n (operands ts)
    if vs.length ≤ 4 then pure (Pseudo.args vs, n) else none
  else if op = "SETKN".toList then setKNStmt n ts
  else if op = "CLEAR".toList then if ts = [] then some (Pseudo.clear, n) else none
  else if op = "LOADB".toList then loadBStmt n ts
  else scalarStmt n line op ts

/-- A statement from its tokens; a line may have none (R87). -/
def statement (n : Names) (line : Nat) (ts : List Token) : Option (List Stmt × Names) :=
  match ts with
  | [] => some ([], n)
  | .name op :: rest =>
    match lookup writeWidths op, lookup readWidths op with
    | some w, _ => writeStmt n w rest
    | _, some w => readStmt n w rest
    | none, none => otherStmt n line op rest
  | _ => none

/-- A line: a label, a statement, both, as in the POLL of R88, or neither (R87, notes/assumptions/23.md). -/
def lineStmts (n : Names) (line : Nat) (ts : List Token) : Option (List Stmt × Names) :=
  match ts with
  | .name l :: .colon :: rest =>
    (statement (labelOf n l).2 line rest).map fun p => (.label (labelOf n l).1 :: p.1, p.2)
  | _ => statement n line ts

/-- The lines of a text. -/
def splitLines : List Char → List Char → List (List Char)
  | [], acc => [acc.reverse]
  | c :: cs, acc => if c = '\n' then acc.reverse :: splitLines cs [] else splitLines cs (c :: acc)

/-- The statements of the lines, from the given line number on. -/
def assembleLines : List (List Char) → Nat → Names → Except AsmError (List Stmt)
  | [], _, _ => .ok []
  | cs :: rest, line, n =>
    match lex cs [] with
    | none => .error (.badToken line)
    | some ts =>
      match lineStmts n line ts with
      | none => .error (.badStatement line)
      | some (st, n) =>
        match assembleLines rest (line + 1) n with
        | .ok more => .ok (st ++ more)
        | .error e => .error e

end Asm

/-- A host script from its text (R87, R88). The variable s of POLL has the number Pseudo.statusVar. -/
def assemble (text : String) : Except AsmError (List Stmt) :=
  Asm.assembleLines (Asm.splitLines text.toList []) 0 { vars := ["s".toList], labels := [] }

end Sys2Proof
end

