-- ==== Sys2Proof/Tests/Slice0.lean ====
section
/-!
SUPPORT. The model's own tests. Expected values are those of spec 95_test_vectors.md (sections 1 and 2) and of the encoding of
30_encoding.md R80 to R82. The second half shows, for every statement with hypotheses, concrete values that meet them.
-/

namespace Sys2Proof.Tests

open Sys2Proof.Machine Sys2Proof.Statements

/-! ### Helpers -/

/-- The next state of an outcome. -/
def after (o : Host.Outcome State Fault Refusal) : State :=
  match o with
  | .next t => t
  | .fault _ => State.reset
  | .refused _ => State.reset

/-- Values at consecutive addresses. -/
def cells {w : Nat} : Nat → List Nat → List (Nat × BitVec w)
  | _, [] => []
  | a, v :: rest => (a, BitVec.ofNat w v) :: cells (a + 1) rest

/-- The state after reset with ARG0 to ARG3. -/
def args (a b c d : Nat) : State :=
  { State.reset with
    arg0 := BitVec.ofNat 32 a, arg1 := BitVec.ofNat 32 b, arg2 := BitVec.ofNat 32 c, arg3 := BitVec.ofNat 32 d }

/-- A state with CFG.K and CFG.N. -/
def setKN (k n : Nat) (s : State) : State := { s with cfgK := BitVec.ofNat 8 k, cfgN := BitVec.ofNat 8 n }

/-- A state with the first entries of XTAB, YTAB and COEF. -/
def tables (x y c : List Nat) (s : State) : State := { s with xtab := cells 0 x, ytab := cells 0 y, coef := cells 0 c }

/-- DMEM[a .. a+n) as numbers. -/
def bytes (s : State) (a n : Nat) : List Nat := bytesAt s a n

/-- STATUS and ERRINFO after a command. -/
def report (i : Instr) (s : State) : Nat × Nat :=
  ((after (exec i s)).status.word.toNat, (after (exec i s)).errinfo.toNat)

/-- Every command answers a next state. -/
theorem exec_next (i : Instr) (s : State) : exec i s = .next (after (exec i s)) := by
  obtain ⟨o, ho⟩ := exec_is_finish i s
  rw [ho]
  cases o <;> rfl

/-! ### Decoding: every command's word, bit by bit (R80, R82) -/

theorem test_decode_nop : decode 0b00000000000000000000000000000000#32 = .ok .nop := rfl
theorem test_decode_rseed : decode 0b00000000000000000000000000010000#32 = .ok .rseed := rfl
theorem test_decode_rnext : decode 0b00000000000000000000000000010001#32 = .ok .rnext := rfl
theorem test_decode_rgen : decode 0b00000000000000000000000000010010#32 = .ok .rgen := rfl
theorem test_decode_rmask : decode 0b00000000000000000000000000010011#32 = .ok .rmask := rfl
theorem test_decode_gmod : decode 0b00000000000000000000000000100000#32 = .ok .gmod := rfl
theorem test_decode_ginv : decode 0b00000000000000000000000000100001#32 = .ok .ginv := rfl
theorem test_decode_gadd : decode 0b00000000000000000000000000100010#32 = .ok .gadd := rfl
theorem test_decode_gsub : decode 0b00000000000000000000000000100011#32 = .ok .gsub := rfl
theorem test_decode_gmul : decode 0b00000000000000000000000000100100#32 = .ok .gmul := rfl
theorem test_decode_peval : decode 0b00000000000000000000000000110000#32 = .ok .peval := rfl
theorem test_decode_pshare : decode 0b00000000000000000000000000110001#32 = .ok .pshare := rfl
theorem test_decode_psharebuf : decode 0b00000000000000000000000000110010#32 = .ok .psharebuf := rfl
theorem test_decode_vsolve : decode 0b00000000000000000000000001000000#32 = .ok .vsolve := rfl
theorem test_decode_vrecon : decode 0b00000000000000000000000001000001#32 = .ok .vrecon := rfl
theorem test_decode_shide : decode 0b00000000000000000000000001010000#32 = .ok .shide := rfl
theorem test_decode_sreveal : decode 0b00000000000000000000000001010001#32 = .ok .sreveal := rfl

theorem test_decode_hole : decode 0x00000014#32 = .error .unassignedOpcode := rfl
theorem test_decode_reserved_bit : decode 0x00000121#32 = .error .reservedBits := rfl
theorem test_decodeTableWord : decodeTableWord 32 0x41 = some .vrecon := rfl
theorem test_decodeTableWord_refuses : decodeTableWord 32 0xFF = none := rfl

/-! ### WellFormed: each check refuses an ill-formed term -/

theorem test_reservedZero_refuses : reservedZero 0x00000121#32 = false := by decide
theorem test_opcodeAssigned_refuses : opcodeAssigned 0x00000014#32 = false := by decide
theorem test_legalWord_refuses : legalWord 0x80000000#32 = false := by decide
theorem test_labelsUnique_refuses : labelsUnique [.label 1, .stop, .label 1] = false := by decide
theorem test_targetsDeclared_refuses : targetsDeclared [.label 1, .jump 2] = false := by decide
theorem test_bitsInRange_refuses : bitsInRange [.label 1, .bit 0 32 1] = false := by decide
theorem test_variablesRead_refuses : variablesRead [] [.expect 3 (.num 0#32), .read .w32 0x008#32 3] = false := by decide
theorem test_params_refused : ¬ Params.legal { Params.default with dmemSize := 4098 } := by decide
theorem test_params_kMax_refused : ¬ Params.legal { Params.default with kMax := 256 } := by decide
theorem test_params_unitBase_refused : ¬ Params.legal { Params.default with unitBase := 2 } := by decide
theorem test_valueRead_refuses : variablesRead [] [.write .w32 0x010#32 (.var 3)] = false := by decide
theorem test_params_default : Params.legal Params.default := by decide

/-- A RUN of GINV, then a read of RES0 and its check, is a well-formed script. -/
theorem test_script_wellFormed :
    scriptWellFormed (Pseudo.scalar .ginv [.num 3#32] 0 ++ [.read .w32 0x020#32 1, .expect 1 (.num 86#32), .stop]) = true := by
  decide

/-! ### Commands (95_test_vectors.md section 2) -/

theorem test_nop : report .nop State.reset = (0x2, 0) := by decide

theorem test_rseed : (after (exec .rseed (args 691 0 0 0))).prng = 0x0005DEECE4DE#48 := by decide
theorem test_rseed_sign :
    (after (exec .rseed { args 0xFFFF 0 0 0 with params := { Params.default with seedExt := .sign } })).prng =
      0xFFFA21131992#48 := by decide

theorem test_rnext_zero :
    (after (exec .rnext State.reset)).prng = 0xB#48 ∧ (after (exec .rnext State.reset)).res0 = 0#32 := by decide
theorem test_rnext_ones : (after (exec .rnext { State.reset with prng := 0xFFFFFFFFFFFF#48 })).res0 = 255#32 := by decide

theorem test_rgen_last_range :
    bytes (after (exec .rgen (args 4088 0 8 0))) 4088 8 = [187, 212, 61, 155, 163, 79, 140, 29] := by decide
theorem test_rgen_seed_first : report .rgen (args 5000 0x10000 8 0) = (0x206, 0x014) := by decide

theorem test_rmask :
    bytes (after (exec .rmask { args 0 0 4 0 with dmem := cells 0 [10, 20, 30, 40] })) 0 4 = [177, 192, 35, 179] := by
  decide
theorem test_rmask_empty : (after (exec .rmask (args 0 1 0 0))).prng = 0x0005DEECE66C#48 := by decide

theorem test_gmod_min : (after (exec .gmod (args 0x80000000 0 0 0))).res0 = 128#32 := by decide
theorem test_gmod_negative : (after (exec .gmod (args 0xFFFFFEFE 0 0 0))).res0 = 256#32 := by decide

theorem test_ginv : (after (exec .ginv (args 3 0 0 0))).res0 = 86#32 := by decide
theorem test_ginv_zero : report .ginv (args 0 0 0 0) = (0x506, 0x010) := by decide

theorem test_gadd : (after (exec .gadd (args 200 100 0 0))).res0 = 43#32 := by decide
theorem test_gadd_order : report .gadd (args 257 257 0 0) = (0x206, 0x010) := by decide

theorem test_gsub : (after (exec .gsub (args 0 1 0 0))).res0 = 256#32 := by decide
theorem test_gsub_second : report .gsub (args 0 257 0 0) = (0x206, 0x014) := by decide

theorem test_gmul : (after (exec .gmul (args 16 16 0 0))).res0 = 256#32 := by decide
theorem test_gmul_inverse : (after (exec .gmul (args 3 86 0 0))).res0 = 1#32 := by decide

theorem test_peval : (after (exec .peval (setKN 3 0 (tables [] [] [1, 2, 3] (args 256 0 0 0))))).res0 = 2#32 := by decide
theorem test_peval_entry : report .peval (setKN 2 0 (tables [] [] [1, 257] (args 1 0 0 0))) = (0x206, 0xC04) := by decide

/-- The row (255, 1) of PSHARE's table: two repairs. -/
def repaired : State := after (exec .pshare (setKN 2 2 (tables [] [] [255, 1] State.reset)))

theorem test_pshare_repairs :
    coefs repaired 2 = [253, 1] ∧ repaired.repairs = 2#32 ∧ repaired.status.word = 0xA#32 := by decide
theorem test_pshare_values : ((repaired.yEntry 0).toNat, (repaired.yEntry 1).toNat) = (254, 255) := by decide

/-- The second row of PSHAREBUF's table: a repair in each group. -/
def sharedBuffer : State :=
  after (exec .psharebuf (setKN 2 2 { args 16 0 2 2 with dmem := cells 0 [128, 128, 255, 1] }))

theorem test_psharebuf :
    bytes sharedBuffer 0 4 = [127, 128, 253, 1] ∧ bytes sharedBuffer 16 4 = [255, 254, 126, 255] ∧
      sharedBuffer.repairs = 3#32 := by decide
theorem test_psharebuf_range : report .psharebuf (setKN 2 2 (args 4095 0 2 2)) = (0x406, 0x010) := by decide

theorem test_vsolve :
    coefs (after (exec .vsolve (setKN 3 0 (tables [5, 3, 1] [89, 83, 60] [] State.reset)))) 3 = [10, 20, 30] := by decide
theorem test_vsolve_zero_point :
    report .vsolve (setKN 2 0 (tables [5, 0] [1, 2] [] State.reset)) = (0x306, 0x404) := by decide

theorem test_vrecon :
    bytes (after (exec .vrecon (setKN 2 0
      (tables [1, 2] [] [] { args 32 24 2 2 with dmem := cells 24 [112, 214, 47, 136] })))) 32 4 =
      [177, 192, 35, 179] := by decide
theorem test_vrecon_wrap :
    report .vrecon (setKN 2 0 (tables [1, 2] [] [] { args 8 0 1 1 with dmem := cells 0 [0, 1] })) = (0x12, 0) := by decide

theorem test_shide :
    bytes (after (exec .shide { args 0 8 1 0 with dmem := cells 0 [0x10, 0x11, 0x12, 0x13, 0x14, 0x15, 0x16, 0x17, 0xA5] }))
      0 8 = [0x11, 0x10, 0x13, 0x12, 0x14, 0x15, 0x16, 0x17] := by decide
theorem test_shide_range : report .shide (args 4090 0 1 0) = (0x406, 0x010) := by decide

theorem test_sreveal :
    bytes (after (exec .sreveal { args 8 0 1 0 with dmem := cells 0 [0x11, 0x10, 0x13, 0x12, 0x14, 0x15, 0x16, 0x17] })) 8 1 =
      [0xA5] := by decide
theorem test_sreveal_empty : report .sreveal (args 4096 4096 0 0) = (0x2, 0) := by decide

/-! ### The host interface (95_test_vectors.md section 2.7) -/

/-- GINV of 3, accepted and not yet completed. -/
def inWindow : State := State.accepting (args 3 0 0 0) 0x21#32

theorem test_bus_little_endian :
    let t := State.reset.busWrite .w32 0x100000#32 0x281E140A#32
    (t.busRead .w8 0x100000#32).1 = 0x0A#32 ∧ (t.busRead .w8 0x100001#32).1 = 0x14#32 ∧
      (t.busRead .w16 0x100002#32).1 = 0x281E#32 := by decide
theorem test_bus_reserved_offset :
    (State.reset.busRead .w32 0x024#32).1 = 0#32 ∧ (State.reset.busRead .w32 0x024#32).2.status.word = 0x80#32 := by decide
theorem test_bus_cfg : ((State.reset.busWrite .w32 0x028#32 0xFFFFFFFF#32).busRead .w32 0x028#32).1 = 0xFFFF#32 := by decide
theorem test_bus_xtab : ((State.reset.busWrite .w32 0x400#32 0x1FF#32).busRead .w32 0x400#32).1 = 255#32 := by decide
theorem test_bus_past_dmem : (State.reset.busWrite .w8 0x101000#32 1#32).status.word = 0x80#32 := by decide
theorem test_window_write_before_completion :
    (after (step (inWindow.busWrite .w32 0x010#32 5#32))).status.word = 0x42#32 ∧
      (after (step (inWindow.busWrite .w32 0x010#32 5#32))).res0 = 86#32 := by decide
theorem test_window_write_after_completion :
    ((after (step inWindow)).busWrite .w32 0x010#32 5#32).arg0 = 5#32 ∧
      ((after (step inWindow)).busWrite .w32 0x010#32 5#32).status.word = 0x2#32 := by decide
theorem test_window_command_dropped :
    (inWindow.busWrite .w32 0x00C#32 0#32).status.word = 0x21#32 ∧
      (after (step (inWindow.busWrite .w32 0x00C#32 0#32))).status.word = 0x22#32 := by decide
theorem test_window_soft_reset :
    (inWindow.busWrite .w32 0x004#32 3#32).arg0 = 0#32 ∧ (inWindow.busWrite .w32 0x004#32 3#32).ie = false ∧
      (inWindow.busWrite .w32 0x004#32 3#32).status.word = 0#32 := by decide
theorem test_withFetchWord : (after (step (State.reset.withFetchWord 32 0x11))).prng = 0xB#48 := by decide

/-! ### The assembler (30_encoding.md R87, R88) -/

theorem test_assemble :
    assemble "        GINV 3          ; inverse\n        R RES0 -> v\n        EXPECT v = 0x5_6\n        END" =
      .ok (Pseudo.scalar .ginv [.num 3#32] 1 ++ [.read .w32 0x020#32 1, .expect 1 (.num 86#32), .stop]) := by rfl
theorem test_assemble_label :
    assemble "l: WB DMEM(1), b\nJ l" = .ok [.label 0, .write .w8 0x100001#32 (.var 1), .jump 0] := by rfl
theorem test_assemble_symbol_values :
    assemble "R RES0 -> e\nEXPECT e = CFG\nLOADB 4, e, XTAB(1)" =
      .ok [.read .w32 0x020#32 1, .expect 1 (.num 0x028#32), .write .w8 0x100004#32 (.var 1),
        .write .w8 0x100005#32 (.num 0x404#32)] := by rfl
theorem test_assemble_past_offsets : assemble "W DMEM(0xFFF00000), 1" = .error (.badStatement 0) := by rfl
theorem test_assemble_past_cfg : assemble "SETKN 2, 0x1000000" = .error (.badStatement 0) := by rfl
theorem test_assemble_separators :
    Asm.number "0x0000_0302".toList = some 0x302 ∧ Asm.number "5_".toList = none ∧ Asm.number "1__0".toList = none ∧
      Asm.number "0x_5".toList = none ∧ Asm.number "0x_".toList = none ∧ Asm.number "0x".toList = none := by decide
theorem test_assemble_bad_line : assemble "CLEAR\nRUN nop" = .error (.badStatement 1) := by rfl

/-! ### Witnesses: for every statement with hypotheses, values that meet them; a statement of several clauses has one for each,
at a boundary of its range -/

theorem wit_DecodeAndEncodeAgree : Instr.wellFormed .sreveal = true ∧ decode 0x51#32 = .ok .sreveal := ⟨rfl, rfl⟩

/-- The word after the last command, and the largest word. -/
theorem wit_EveryOtherWordEndsWithIllegalCmd :
    ∀ c ∈ [0x52#32, 0xFFFFFFFF#32], (∀ i, (c, i) ∉ opmap) ∧ (State.accepting State.reset c).schedule = [] ∧
      (State.accepting State.reset c).phase = .busy c ∧
      { State.accepting State.reset c with schedule := [.engine] }.schedule = .engine :: [] := by
  intro c hc
  refine ⟨fun i => ?_, rfl, rfl, rfl⟩
  fin_cases hc <;> cases i <;> decide

theorem wit_StepRunsTheDecodedCommand :
    inWindow.phase = .busy 0x21#32 ∧ decode 0x21#32 = .ok .ginv ∧ inWindow.schedule = [] ∧
      { inWindow with schedule := [.engine] }.schedule = .engine :: [] := ⟨rfl, rfl, rfl, rfl⟩

/-- A host with one statement, at it and past it. -/
theorem wit_StepRunsTheHostStatement :
    State.reset.schedule = [] ∧ State.reset.phase = .idle ∧ State.reset.hostStatement = none ∧
      (State.reset.withScript [.stop]).hostStatement = some .stop ∧
      { State.reset with schedule := [.host] }.schedule = .host :: [] ∧ lookupVar [(1, 2#32)] 1 = some 2#32 ∧
      lookupVar [(1, 2#32)] 3 = none ∧ 3 ≠ 1 := ⟨rfl, rfl, rfl, rfl, rfl, rfl, rfl, by decide⟩

/-- A host whose variable 1 is 2 and whose variable 4 is 3: bit 1 of 2 is 1, bit 0 and the bits from 32 up are 0; no variable 5,
no label 8. -/
theorem wit_HostControlFlow :
    let h : HostAgent := { script := [.label 7], position := 0, vars := [(1, 2#32), (4, 3#32)] }
    lookupVar h.vars 1 = some 2#32 ∧ findLabel h.script 7 = some 0 ∧ (2#32).getLsbD 1 = true ∧ (2#32).getLsbD 0 = false ∧
      (2#32).getLsbD 32 = false ∧ 2#32 ≠ 3#32 ∧ lookupVar h.vars 4 = some 3#32 ∧ lookupVar h.vars 5 = none ∧
      findLabel h.script 8 = none := by
  decide

theorem wit_EveryAcceptedCommandCompletes :
    inWindow.phase = .busy 0x21#32 ∧ inWindow.schedule = [] ∧
      ∃ rest, { inWindow with schedule := [.engine] }.schedule = .engine :: rest := ⟨rfl, rfl, [], rfl⟩

theorem wit_CmdWriteIsAcceptedOrDropped :
    inWindow.phase ≠ .idle ∧ (after (exec .ginv State.reset)).status.err = true ∧ State.reset.phase = .idle ∧
      State.reset.status.err = false := by decide

theorem wit_ErrorsChangeOnlyTheReport :
    exec .ginv State.reset = .next (after (exec .ginv State.reset)) ∧ State.reset.status.err = false ∧
      (after (exec .ginv State.reset)).status.err = true := ⟨exec_next _ _, by decide, by decide⟩

theorem wit_CommandsLeaveTheHostsStateAlone : exec .ginv inWindow = .next (after (exec .ginv inWindow)) := exec_next _ _

theorem wit_CommandsWriteOnlyTheirWriteSet :
    exec .ginv inWindow = .next (after (exec .ginv inWindow)) ∧ inWindow.status.err = false ∧
      (after (exec .ginv inWindow)).status.err = false ∧ Instr.ginv ∉ [Instr.rseed, .rnext, .rgen, .rmask] ∧
      Instr.vrecon ∉ [Instr.rnext, .gmod, .ginv, .gadd, .gsub, .gmul, .peval] ∧ Instr.ginv ∉ [Instr.pshare, .psharebuf] ∧
      Instr.ginv ≠ .vrecon ∧ coefsWritten .ginv inWindow ≤ 0 ∧ valuesWritten .ginv inWindow ≤ 0 ∧
      ¬ WritesDmem .ginv inWindow 0 :=
  ⟨exec_next _ _, by decide, by decide, by decide, by decide, by decide, by decide, by decide, by decide, id⟩

theorem wit_NopOnlyCompletes :
    State.reset.phase = .idle ∧ State.reset.status.err = false ∧ inWindow.phase ≠ .idle ∧
      (after (exec .ginv State.reset)).status.err = true := by decide

theorem wit_RseedLoadsTheSeedState : 0x10000 ≤ (args 0x10000 0 0 0).arg0.toNat ∧ (args 0xFFFF 0 0 0).arg0.toNat < 0x10000 := by
  decide

/-- RGEN and RMASK: a seed too large, a range one past the end, the last legal range. -/
theorem wit_RgenWritesTheMask :
    0x10000 ≤ (args 0 0x10000 0 0).arg1.toNat ∧ (args 4089 0xFFFF 8 0).arg1.toNat < 0x10000 ∧
      ¬ InDmem (args 4089 0xFFFF 8 0) 4089 8 ∧ InDmem (args 4088 0xFFFF 8 0) 4088 8 := by
  unfold InDmem
  decide

theorem wit_RmaskXorsTheMask :
    0x10000 ≤ (args 0 0x10000 0 0).arg1.toNat ∧ (args 4097 0 0 0).arg1.toNat < 0x10000 ∧
      ¬ InDmem (args 4096 0 1 0) 4096 1 ∧ InDmem (args 4097 0 0 0) 4097 0 := by
  unfold InDmem
  decide

theorem wit_MaskIsAnInvolution : (args 0 1 4096 0).arg1.toNat < 0x10000 ∧ InDmem (args 0 1 4096 0) 0 4096 := by
  unfold InDmem
  decide

theorem wit_TheStreamDependsOnlyOnTheSeed :
    (args 9 1 4 0).params.seedExt = (args 0 1 4 0).params.seedExt ∧ (args 9 1 4 0).arg1 = (args 0 1 4 0).arg1 ∧
      (args 9 1 4 0).arg2 = (args 0 1 4 0).arg2 ∧ (args 0 1 4 0).arg1.toNat < 0x10000 ∧ InDmem (args 0 1 4 0) 0 4 ∧
      InDmem (args 9 1 4 0) 9 4 := by
  unfold InDmem
  decide

theorem wit_GinvGivesTheInverse :
    256 < (args 257 0 0 0).arg0.toNat ∧ (args 0 0 0 0).arg0.toNat = 0 ∧ 1 ≤ (args 256 0 0 0).arg0.toNat ∧
      (args 256 0 0 0).arg0.toNat ≤ 256 := by decide

/-- GADD, GSUB and GMUL: each operand just past its range, and both at its end. -/
theorem wit_GaddAddsFieldElements :
    256 < (args 257 0 0 0).arg0.toNat ∧ (args 256 257 0 0).arg0.toNat ≤ 256 ∧ 256 < (args 256 257 0 0).arg1.toNat ∧
      (args 256 256 0 0).arg1.toNat ≤ 256 := by decide

theorem wit_GsubSubtractsFieldElements :
    256 < (args 0xFFFFFFFF 0 0 0).arg0.toNat ∧ (args 0 257 0 0).arg0.toNat ≤ 256 ∧ 256 < (args 0 257 0 0).arg1.toNat ∧
      (args 0 256 0 0).arg1.toNat ≤ 256 := by decide

theorem wit_GmulMultipliesFieldElements :
    256 < (args 257 257 0 0).arg0.toNat ∧ (args 256 257 0 0).arg0.toNat ≤ 256 ∧ 256 < (args 256 257 0 0).arg1.toNat ∧
      (args 0 256 0 0).arg1.toNat ≤ 256 := by decide

theorem wit_InverseTableIsTheUniqueInverse : (1 ≤ 256 ∧ 256 ≤ 256) ∧ 256 ≤ 256 ∧ (256 * 256) % 257 = 1 := by decide

theorem wit_FieldCorrectness :
    1 ≤ (args 256 256 0 0).arg0.toNat ∧ (args 256 256 0 0).arg0.toNat ≤ 256 ∧
      (args 256 256 0 0).arg1 = BitVec.ofNat 32 (inv (args 256 256 0 0).arg0.toNat) := by decide

/-- K below and above its range, x above its range, the last of the entries too large, and everything at its largest. -/
theorem wit_PevalEvaluatesThePolynomial :
    ¬ LegalK (setKN 1 0 (args 0 0 0 0)) ∧
    ¬ LegalK { setKN 255 0 (args 0 0 0 0) with params := { Params.default with kMax := 254 } } ∧
    (LegalK (setKN 255 0 (args 257 0 0 0)) ∧ 256 < (setKN 255 0 (args 257 0 0 0)).arg0.toNat) ∧
    (let s := setKN 2 0 (tables [] [] [256, 257] (args 256 0 0 0))
     LegalK s ∧ s.arg0.toNat ≤ 256 ∧ 1 < s.cfgK.toNat ∧ 256 < (s.coefEntry 1).toNat ∧
      ∀ i, i < 1 → (s.coefEntry i).toNat ≤ 256) ∧
    (let s := setKN 2 0 (tables [] [] [256, 256] (args 256 0 0 0))
     LegalK s ∧ s.arg0.toNat ≤ 256 ∧ ∀ j, j < s.cfgK.toNat → (s.coefEntry j).toNat ≤ 256) := by
  decide

theorem wit_PshareRepairsAndShares :
    ¬ LegalKN (setKN 3 2 State.reset) ∧
    (let s := setKN 2 2 (tables [] [] [255, 256] State.reset)
     LegalKN s ∧ 1 < s.cfgK.toNat ∧ 255 < (s.coefEntry 1).toNat ∧ ∀ i, i < 1 → (s.coefEntry i).toNat ≤ 255) ∧
    (let s := setKN 2 255 (tables [] [] [255, 255] State.reset)
     LegalKN s ∧ ∀ j, j < s.cfgK.toNat → (s.coefEntry j).toNat ≤ 255) := by
  decide

theorem wit_RepairLowersTheFirstNonzero :
    1 < [0, 128].length ∧ [0, 128].getD 1 0 ≠ 0 ∧ ∀ i, i < 1 → [0, 128].getD i 0 = 0 := by decide

theorem wit_RepairLoopEnds : ∀ a ∈ [255, 1], a ≤ 255 := by decide

theorem wit_RepairIsLossy : (∀ a ∈ [255, 1], a ≤ 255) ∧ 0 < (share [255, 1] 2).2.2 := by decide

/-- A shadow range one past the end, a source range one past it, and both up to the end. -/
theorem wit_PsharebufChecksAndCompletes :
    ¬ LegalKN (setKN 3 2 State.reset) ∧
    (let s := setKN 2 2 (args 4093 0 2 2)
     LegalKN s ∧ ∃ m, m < s.cfgN.toNat ∧ ¬ InDmem s (s.arg0.toNat + m * s.arg3.toNat) s.arg2.toNat) ∧
    (let s := setKN 2 2 (args 4092 4093 2 2)
     LegalKN s ∧ (∀ m, m < s.cfgN.toNat → InDmem s (s.arg0.toNat + m * s.arg3.toNat) s.arg2.toNat) ∧
      ¬ InDmem s s.arg1.toNat (s.arg2.toNat * s.cfgK.toNat)) ∧
    (let s := setKN 2 2 (args 4092 4092 2 2)
     LegalKN s ∧ (∀ m, m < s.cfgN.toNat → InDmem s (s.arg0.toNat + m * s.arg3.toNat) s.arg2.toNat) ∧
      InDmem s s.arg1.toNat (s.arg2.toNat * s.cfgK.toNat)) ∧
    (setKN 2 2 (args 4097 4097 0 0)).arg2.toNat = 0 := by
  unfold InDmem
  decide

/-- Shadows over the source and over each other, in any place: stride 0, and the last of two indices. -/
theorem wit_PsharebufSharesEachGroup_overlapping :
    let s := setKN 2 2 (args 1 0 2 0)
    LegalKN s ∧ (∀ m, m < s.cfgN.toNat → InDmem s (s.arg0.toNat + m * s.arg3.toNat) s.arg2.toNat) ∧
      InDmem s s.arg1.toNat (s.arg2.toNat * s.cfgK.toNat) ∧
      ∀ i', 1 < i' → i' < s.cfgN.toNat → s.arg0.toNat + i' * s.arg3.toNat + 0 ≠ s.arg0.toNat + 1 * s.arg3.toNat + 0 := by
  refine ⟨by decide, by unfold InDmem; decide, by unfold InDmem; decide, fun i' h h' => ?_⟩
  have h' : i' < 2 := h'
  omega

theorem wit_PsharebufSharesEachGroup :
    let s := setKN 2 2 (args 4 0 2 2)
    LegalKN s ∧ (∀ m, m < s.cfgN.toNat → InDmem s (s.arg0.toNat + m * s.arg3.toNat) s.arg2.toNat) ∧
      InDmem s s.arg1.toNat (s.arg2.toNat * s.cfgK.toNat) ∧ s.arg2.toNat ≤ s.arg3.toNat ∧
      ∀ m, m < s.cfgN.toNat →
        Apart s.arg1.toNat (s.arg2.toNat * s.cfgK.toNat) (s.arg0.toNat + m * s.arg3.toNat) s.arg2.toNat := by
  refine ⟨by decide, by unfold InDmem; decide, by unfold InDmem; decide, by decide, fun m _ i j hi hj => ?_⟩
  have hi : i < 4 := hi
  show 0 + i ≠ 4 + m * 2 + j
  omega

theorem wit_PivotsAreProductsOfDifferences :
    0 < 2 ∧ (∃ mat, forUpE 0 (fun c' a => eliminateColumn 2 c' a) (buildMat [1, 2] [5, 6] 2) = .ok mat) ∧
      ∃ mat, forwardEliminate 2 (buildMat [1, 2] [5, 6] 2) = .ok mat := ⟨by decide, ⟨_, rfl⟩, ⟨_, rfl⟩⟩

theorem wit_SolverMeetsNoZeroPivot :
    (∀ j, j < 2 → [256, 0].getD j 0 ≤ 256) ∧ ∀ i j, i < j → j < 2 → [256, 0].getD i 0 ≠ [256, 0].getD j 0 := by
  refine ⟨by decide, fun i j hi hj => ?_⟩
  obtain ⟨rfl, rfl⟩ : i = 0 ∧ j = 1 := by omega
  decide

/-- K too small, a repeated point, a right-hand side too large, and the largest points and values. -/
theorem wit_VsolveInterpolates :
    ¬ LegalK (setKN 1 0 State.reset) ∧
    (let s := setKN 2 0 (tables [5, 5] [] [] State.reset)
     LegalK s ∧ 1 < s.cfgK.toNat ∧ BadPoint s 1 ∧ ∀ i, i < 1 → ¬ BadPoint s i) ∧
    (let s := setKN 2 0 (tables [255, 254] [256, 257] [] State.reset)
     LegalK s ∧ GoodPoints s s.cfgK.toNat ∧ 1 < s.cfgK.toNat ∧ 256 < (s.yEntry 1).toNat ∧
      ∀ i, i < 1 → (s.yEntry i).toNat ≤ 256) ∧
    (let s := setKN 2 0 (tables [255, 254] [256, 256] [] State.reset)
     LegalK s ∧ GoodPoints s s.cfgK.toNat ∧ ∀ j, j < s.cfgK.toNat → (s.yEntry j).toNat ≤ 256) := by
  unfold GoodPoints BadPoint
  decide

/-- The shares 1 and 2 of (255, 1), taken in the other order. -/
theorem wit_VsolveRecoversWhatPshareShared :
    let s := setKN 2 2 (tables [] [] [255, 1] State.reset)
    let u := setKN 2 0 (tables [2, 1] [255, 254] [] State.reset)
    LegalKN s ∧ (∀ j, j < s.cfgK.toNat → (s.coefEntry j).toNat ≤ 255) ∧ exec .pshare s = .next repaired ∧
      u.cfgK = s.cfgK ∧ u.params = s.params ∧
      (∀ j, j < s.cfgK.toNat → 1 ≤ [2, 1].getD j 0 ∧ [2, 1].getD j 0 ≤ s.cfgN.toNat) ∧
      (∀ i j, i < j → j < s.cfgK.toNat → [2, 1].getD i 0 ≠ [2, 1].getD j 0) ∧
      ∀ j, j < s.cfgK.toNat →
        u.xEntry j = BitVec.ofNat 8 ([2, 1].getD j 0) ∧ u.yEntry j = repaired.yEntry ([2, 1].getD j 0 - 1) := by
  refine ⟨by decide, by decide, exec_next _ _, rfl, rfl, by decide, fun i j hi hj => ?_, by decide⟩
  have hj : j < 2 := hj
  obtain ⟨rfl, rfl⟩ : i = 0 ∧ j = 1 := by omega
  decide

/-- K too small, a zero point, the output one past the end, a row one past it, and all up to the end. -/
theorem wit_VreconChecksAndCompletes :
    ¬ LegalK (setKN 1 0 State.reset) ∧
    (let s := setKN 2 0 (tables [0, 2] [] [] State.reset)
     LegalK s ∧ 0 < s.cfgK.toNat ∧ BadPoint s 0 ∧ ∀ i, i < 0 → ¬ BadPoint s i) ∧
    (let s := setKN 2 0 (tables [1, 2] [] [] (args 4095 0 1 1))
     LegalK s ∧ GoodPoints s s.cfgK.toNat ∧ ¬ InDmem s s.arg0.toNat (s.arg2.toNat * s.cfgK.toNat)) ∧
    (let s := setKN 2 0 (tables [1, 2] [] [] (args 4094 4095 1 1))
     LegalK s ∧ GoodPoints s s.cfgK.toNat ∧ InDmem s s.arg0.toNat (s.arg2.toNat * s.cfgK.toNat) ∧
      ∃ j, j < s.cfgK.toNat ∧ ¬ InDmem s (s.arg1.toNat + j * s.arg3.toNat) s.arg2.toNat) ∧
    (let s := setKN 2 0 (tables [1, 2] [] [] (args 4094 4094 1 1))
     LegalK s ∧ GoodPoints s s.cfgK.toNat ∧ InDmem s s.arg0.toNat (s.arg2.toNat * s.cfgK.toNat) ∧
      ∀ j, j < s.cfgK.toNat → InDmem s (s.arg1.toNat + j * s.arg3.toNat) s.arg2.toNat) ∧
    (args 0 0 0 0).arg2.toNat = 0 ∧ { Status.zero with wrap := true }.wrap = true := by
  unfold GoodPoints BadPoint InDmem
  decide

/-- The output over the rows. -/
theorem wit_VreconSolvesEachGroup_overlapping :
    let s := setKN 2 0 (tables [1, 2] [] [] (args 1 0 2 2))
    LegalK s ∧ GoodPoints s s.cfgK.toNat ∧ InDmem s s.arg0.toNat (s.arg2.toNat * s.cfgK.toNat) ∧
      ∀ j, j < s.cfgK.toNat → InDmem s (s.arg1.toNat + j * s.arg3.toNat) s.arg2.toNat := by
  unfold GoodPoints BadPoint InDmem
  decide

theorem wit_VreconSolvesEachGroup :
    let s := setKN 2 0 (tables [1, 2] [] [] (args 4 0 2 2))
    LegalK s ∧ GoodPoints s s.cfgK.toNat ∧ InDmem s s.arg0.toNat (s.arg2.toNat * s.cfgK.toNat) ∧
      (∀ j, j < s.cfgK.toNat → InDmem s (s.arg1.toNat + j * s.arg3.toNat) s.arg2.toNat) ∧
      ∀ j, j < s.cfgK.toNat →
        Apart s.arg0.toNat (s.arg2.toNat * s.cfgK.toNat) (s.arg1.toNat + j * s.arg3.toNat) s.arg2.toNat := by
  refine ⟨by decide, by unfold GoodPoints BadPoint; decide, by unfold InDmem; decide, by unfold InDmem; decide,
    fun m hm i j hi hj => ?_⟩
  have hm : m < 2 := hm
  have hj : j < 2 := hj
  show 4 + i ≠ 0 + m * 2 + j
  omega

/-- The carrier one past the end, the shadow one past it, and both up to the end. -/
theorem wit_ShideHidesMsbFirst :
    ¬ InDmem (args 4089 0 1 0) 4089 (8 * 1) ∧
    (InDmem (args 4088 4096 1 0) 4088 (8 * 1) ∧ ¬ InDmem (args 4088 4096 1 0) 4096 1) ∧
    (InDmem (args 4087 4095 1 0) 4087 (8 * 1) ∧ InDmem (args 4087 4095 1 0) 4095 1 ∧ Apart 4087 (8 * 1) 4095 1) := by
  refine ⟨by unfold InDmem; decide, by unfold InDmem; decide, by unfold InDmem; decide, by unfold InDmem; decide,
    fun i j hi hj => ?_⟩
  omega

theorem wit_SrevealReadsMsbFirst :
    ¬ InDmem (args 4096 0 1 0) 4096 1 ∧
    (InDmem (args 4095 4089 1 0) 4095 1 ∧ ¬ InDmem (args 4095 4089 1 0) 4089 (8 * 1)) ∧
    (InDmem (args 4095 4087 1 0) 4095 1 ∧ InDmem (args 4095 4087 1 0) 4087 (8 * 1) ∧ Apart 4095 1 4087 (8 * 1)) := by
  refine ⟨by unfold InDmem; decide, by unfold InDmem; decide, by unfold InDmem; decide, by unfold InDmem; decide,
    fun i j hi hj => ?_⟩
  omega

theorem wit_StegoRoundTrip :
    let s := args 0 8 1 0
    let t := after (exec .shide s)
    let u := { t with arg0 := 9#32, arg1 := 0#32 }
    InDmem s 0 (8 * 1) ∧ InDmem s 8 1 ∧ Apart 0 (8 * 1) 8 1 ∧ exec .shide s = .next t ∧ u.dmem = t.dmem ∧
      u.powerOns = t.powerOns ∧ u.params = t.params ∧ u.arg1 = s.arg0 ∧ u.arg2 = s.arg2 ∧ InDmem u u.arg0.toNat 1 ∧
      Apart 9 1 0 (8 * 1) := by
  refine ⟨by unfold InDmem; decide, by unfold InDmem; decide, fun i j hi hj => by omega, exec_next _ _, rfl, rfl, rfl, rfl,
    by decide, by unfold InDmem; decide, fun i j hi hj => by omega⟩

theorem wit_ReturnFromErrorReopensTheEngine :
    (0x4#32).getLsbD 2 = true ∧ (after (exec .ginv State.reset)).phase = .idle := by decide

/-- Illegal: a hole, a narrow register access, the first reserved offset, one past DMEM; legal: the last register, the last
table entry, the last byte of DMEM. -/
theorem wit_IllegalAccessOnlySetsAccerr :
    (¬ LegalAccess Params.default .w32 0x024#32 ∧ ¬ LegalAccess Params.default .w16 0x010#32 ∧
      ¬ LegalAccess Params.default .w32 0x1000#32 ∧ ¬ LegalAccess Params.default .w8 0x101000#32) ∧
    LegalAccess Params.default .w32 0x040#32 ∧ LegalAccess Params.default .w32 0xFFC#32 ∧
      LegalAccess Params.default .w8 0x100FFF#32 ∧ 0x040#32 ≠ 0x004#32 ∧ 0x040#32 ≠ 0x008#32 ∧
      State.reset.status.busy = false ∧ LegalAccess Params.default .w32 0x004#32 ∧
      LegalAccess Params.default .w32 0x008#32 ∧ (1#32).getLsbD 1 = false ∧ (2#32).getLsbD 1 = true := by
  unfold LegalAccess
  refine ⟨⟨?_, ?_, ?_, ?_⟩, ?_, ?_, ?_, ?_, ?_, ?_, ?_, ?_, ?_, ?_⟩ <;> decide

/-- The last word of DMEM. -/
theorem wit_DmemAccessIsLittleEndian :
    Params.legal State.reset.params ∧ State.reset.status.busy = false ∧ 4092 % Width.w32.bytes = 0 ∧
      4092 + Width.w32.bytes ≤ State.reset.params.dmemSize := by decide

theorem wit_BusyWindowIgnoresOperandWrites :
    inWindow.status.busy = true ∧ LegalAccess inWindow.params .w32 0x400#32 ∧ 0x400 ≤ (0x400#32).toNat ∧
      LegalAccess inWindow.params .w32 0x010#32 ∧ LegalAccess inWindow.params .w32 0x040#32 ∧
      LegalAccess inWindow.params .w32 0x004#32 ∧ (1#32).getLsbD 1 = false ∧ (2#32).getLsbD 1 = true ∧
      LegalAccess inWindow.params .w32 0x008#32 ∧ LegalAccess inWindow.params .w32 0x00C#32 ∧ inWindow.phase ≠ .idle := by
  unfold LegalAccess
  refine ⟨?_, ?_, ?_, ?_, ?_, ?_, ?_, ?_, ?_, ?_, ?_⟩ <;> decide

theorem wit_BusyWindowReads :
    inWindow.status.busy = true ∧ 255 < 256 ∧ 4092 % Width.w32.bytes = 0 ∧
      4092 + Width.w32.bytes ≤ inWindow.params.dmemSize ∧ 0x100000 + 4092 + Width.w32.bytes ≤ 2 ^ 32 := by decide

theorem wit_RegistersReadBack : State.reset.status.busy = false ∧ (1#32).getLsbD 1 = false := by decide

theorem wit_TableEntriesReadBack : State.reset.status.busy = false ∧ 255 < 256 ∧ 254 ≠ 255 := by decide

theorem wit_ReadOnlyRegistersIgnoreWrites : Params.legal State.reset.params := by decide

/-- SRST while idle, in a word that is no command, and in commands whose write set lacks, and has, a coefficient, a value and a
byte that exists: the last of the coefficients and values, and DMEM_SIZE − 1. -/
theorem wit_SoftResetResetsTheRegisters :
    (2#32).getLsbD 1 = true ∧ State.reset.phase = .idle ∧
      ((State.accepting State.reset 0x14#32).phase = .busy 0x14#32 ∧ decode 0x14#32 = .error .unassignedOpcode) ∧
      (State.accepting State.reset 0x13#32).phase = .busy 0x13#32 ∧ decode 0x13#32 = .ok .rmask ∧
      coefsWritten .rmask State.reset ≤ 0 ∧ valuesWritten .rmask State.reset ≤ 0 ∧ ¬ WritesDmem .rmask State.reset 0 ∧
      decode 0x31#32 = .ok .pshare ∧ 0 < coefsWritten .pshare { State.reset with cfgK := 1#8 } ∧
      254 < valuesWritten .pshare { State.reset with cfgN := 255#8 } ∧
      WritesDmem .rmask (args 4095 0 2 0) 4095 ∧ 4095 < (args 4095 0 2 0).params.dmemSize :=
  ⟨rfl, rfl, ⟨rfl, rfl⟩, rfl, rfl, by decide, by decide, fun h => absurd h.2 (by decide), rfl, by decide, by decide,
    ⟨by decide, by decide⟩, by decide⟩

theorem wit_PowerOnResetValues :
    (∃ p, State.reset = State.resetWith p) ∧
      ∃ rest, { inWindow with schedule := [.powerOn] }.schedule = .powerOn :: rest ∧
        step { inWindow with schedule := [.powerOn] } =
          .next (State.powerOnReset { inWindow with schedule := [] }) := ⟨⟨_, rfl⟩, [], rfl, rfl⟩

theorem wit_InterruptIsTheLevel :
    exec .ginv inWindow = .next (after (exec .ginv inWindow)) ∧ (2#32).getLsbD 1 = true ∧ State.reset.phase = .idle ∧
      State.reset.status.err = false ∧ (2#32).getLsbD 0 = false ∧
      (State.accepting State.reset 0x52#32).phase = .busy 0x52#32 ∧
      engineStep (State.accepting State.reset 0x52#32) =
        .next (after (engineStep (State.accepting State.reset 0x52#32))) :=
  ⟨exec_next _ _, by decide, rfl, rfl, by decide, rfl, rfl⟩

/-- A coherent state after an error. -/
theorem wit_TheFirstReportIsNeverOverwritten :
    StatusCoherent (after (exec .ginv State.reset)) ∧ (after (exec .ginv State.reset)).status.err = true ∧
      step (after (exec .ginv State.reset)) = .next (after (step (after (exec .ginv State.reset)))) :=
  ⟨⟨by decide, by decide, by decide, by decide⟩, by decide, rfl⟩

/-- A coherent state in the BUSY window. -/
theorem wit_EveryStepKeepsStatusCoherent :
    StatusCoherent inWindow ∧ step inWindow = .next (after (step inWindow)) :=
  ⟨⟨by decide, by decide, by decide, by decide⟩, exec_next .ginv inWindow⟩

/-- A coherent storage with something in it. -/
theorem wit_EveryStepKeepsStorageCoherent :
    let s := tables [1, 2] [] [255, 256] { inWindow with dmem := cells 4094 [10, 20] }
    StorageCoherent s ∧ step s = .next (after (step s)) := by
  intro s
  exact ⟨⟨by decide, by decide, by decide, by decide, by decide, by decide, by decide, by decide⟩, exec_next .ginv s⟩

end Sys2Proof.Tests
end

section
/-!
PROOFS. What every command may change, said once (10_state.md R47): the command's outcome as one function of the instruction,
and the frame of a success.
-/

namespace Sys2Proof.Machine

open Sys2Proof.Statements

/-- What a command performs before its completion step: exec without finish. -/
def performInstr (i : Instr) (s : State) : Except EngineError State :=
  match i with
  | .nop => .ok s
  | .rseed => performRseed s
  | .rnext => performRnext s
  | .rgen => performRgen s
  | .rmask => performRmask s
  | .gmod => performGmod s
  | .ginv => performGinv s
  | .gadd => performField fadd s
  | .gsub => performField fsub s
  | .gmul => performField fmul s
  | .peval => performPeval s
  | .pshare => performPshare s
  | .psharebuf => performPsharebuf s
  | .vsolve => performVsolve s
  | .vrecon => performVrecon s
  | .shide => performShide s
  | .sreveal => performSreveal s

theorem exec_eq_finish (i : Instr) (s : State) : exec i s = finish s (performInstr i s) := by
  cases i <;> rfl

/-- The write set of R47 for a command that raises no error, before its completion: the fields any command may change, and for
each of them the commands that may. -/
structure CommandFrame (i : Instr) (s t : State) : Prop where
  /-- Only the engine's own results, tables, DMEM and the flags RPR and WRAP. -/
  engineOnly : ∃ x v r c y m p w, t = { s with
    prng := x, res0 := v, repairs := r, coef := c, ytab := y, dmem := m, status := { s.status with rpr := p, wrap := w } }
  prng : i ∉ [Instr.rseed, .rnext, .rgen, .rmask] → t.prng = s.prng
  res0 : i ∉ [Instr.rnext, .gmod, .ginv, .gadd, .gsub, .gmul, .peval] → t.res0 = s.res0
  repairs : i ∉ [Instr.pshare, .psharebuf] → t.repairs = s.repairs ∧ t.status.rpr = s.status.rpr
  wrap : i ≠ .vrecon → t.status.wrap = s.status.wrap
  coefs : ∀ j, coefsWritten i s ≤ j → t.coefEntry j = s.coefEntry j
  values : ∀ j, valuesWritten i s ≤ j → t.yEntry j = s.yEntry j
  bytes : ∀ a, ¬ WritesDmem i s a → t.readByte a = s.readByte a
  storage : StorageCoherent s → StorageCoherent t

/-- A command that changes RES0 alone. -/
theorem CommandFrame.of_res0 {i : Instr} {s t : State} (h : t = { s with res0 := t.res0 })
    (hi : i ∈ [Instr.rnext, .gmod, .ginv, .gadd, .gsub, .gmul, .peval]) : CommandFrame i s t := by
  obtain ⟨v, rfl⟩ : ∃ v, t = { s with res0 := v } := ⟨_, h⟩
  exact
    { engineOnly := ⟨_, v, _, _, _, _, _, _, rfl⟩
      prng := fun _ => rfl
      res0 := fun hn => absurd hi hn
      repairs := fun _ => ⟨rfl, rfl⟩
      wrap := fun _ => rfl
      coefs := fun _ _ => rfl
      values := fun _ _ => rfl
      bytes := fun _ _ => rfl
      storage := fun hc => hc.congr rfl rfl rfl rfl rfl }

/-- A command that changes bytes of its write set alone. -/
theorem CommandFrame.of_bytes {i : Instr} {s t : State} (h : OnlyBytes s t (WritesDmem i s)) : CommandFrame i s t := by
  obtain ⟨⟨m, rfl⟩, hbytes, hstorage⟩ := h
  exact
    { engineOnly := ⟨_, _, _, _, _, m, _, _, rfl⟩
      prng := fun _ => rfl
      res0 := fun _ => rfl
      repairs := fun _ => ⟨rfl, rfl⟩
      wrap := fun _ => rfl
      coefs := fun _ _ => rfl
      values := fun _ _ => rfl
      bytes := hbytes
      storage := hstorage }

/-- A command that changes S and bytes of its write set. -/
theorem CommandFrame.of_mask {i : Instr} {s t : State} (h : OnlyMask s t s.arg0.toNat s.arg2.toNat)
    (hi : i = .rgen ∨ i = .rmask) : CommandFrame i s t := by
  obtain ⟨⟨x, m, rfl⟩, hbytes, hstorage⟩ := h
  have hwrites (a : Nat) : WritesDmem i s a ↔ s.arg0.toNat ≤ a ∧ a < s.arg0.toNat + s.arg2.toNat := by
    rcases hi with rfl | rfl <;> rfl
  exact
    { engineOnly := ⟨x, _, _, _, _, m, _, _, rfl⟩
      prng := fun hn => absurd (by rcases hi with rfl | rfl <;> decide) hn
      res0 := fun _ => rfl
      repairs := fun _ => ⟨rfl, rfl⟩
      wrap := fun _ => rfl
      coefs := fun _ _ => rfl
      values := fun _ _ => rfl
      bytes := fun a ha => hbytes a (by rw [hwrites] at ha; omega)
      storage := hstorage }

theorem performRseed_frame {s t : State} (h : performRseed s = .ok t) : CommandFrame .rseed s t := by
  obtain ⟨seed, rfl⟩ := performRseed_ok h
  rw [State.reseed_eq]
  exact
    { engineOnly := ⟨_, _, _, _, _, _, _, _, rfl⟩
      prng := fun hn => absurd (by decide) hn
      res0 := fun _ => rfl
      repairs := fun _ => ⟨rfl, rfl⟩
      wrap := fun _ => rfl
      coefs := fun _ _ => rfl
      values := fun _ _ => rfl
      bytes := fun _ _ => rfl
      storage := fun hc => hc.congr rfl rfl rfl rfl rfl }

theorem performRnext_frame {s t : State} (h : performRnext s = .ok t) : CommandFrame .rnext s t := by
  obtain ⟨x, v, rfl⟩ := performRnext_ok h
  exact
    { engineOnly := ⟨x, v, _, _, _, _, _, _, rfl⟩
      prng := fun hn => absurd (by decide) hn
      res0 := fun hn => absurd (by decide) hn
      repairs := fun _ => ⟨rfl, rfl⟩
      wrap := fun _ => rfl
      coefs := fun _ _ => rfl
      values := fun _ _ => rfl
      bytes := fun _ _ => rfl
      storage := fun hc => hc.congr rfl rfl rfl rfl rfl }

theorem performPshare_frame {s t : State} (h : performPshare s = .ok t) : CommandFrame .pshare s t := by
  obtain ⟨heq, hcoefs, hvalues, hstorage⟩ := performPshare_ok h
  obtain ⟨c, y, r, p, rfl⟩ : ∃ c y r p,
      t = { s with coef := c, ytab := y, repairs := r, status := { s.status with rpr := p } } := ⟨_, _, _, _, heq⟩
  exact
    { engineOnly := ⟨_, _, r, c, y, _, p, _, rfl⟩
      prng := fun _ => rfl
      res0 := fun _ => rfl
      repairs := fun hn => absurd (by decide) hn
      wrap := fun _ => rfl
      coefs := hcoefs
      values := hvalues
      bytes := fun _ _ => rfl
      storage := hstorage }

theorem performPsharebuf_frame {s t : State} (h : performPsharebuf s = .ok t) : CommandFrame .psharebuf s t := by
  obtain ⟨heq, hbytes, hstorage⟩ := performPsharebuf_ok h
  obtain ⟨m, r, p, rfl⟩ : ∃ m r p, t = { s with dmem := m, repairs := r, status := { s.status with rpr := p } } :=
    ⟨_, _, _, heq⟩
  exact
    { engineOnly := ⟨_, _, r, _, _, m, p, _, rfl⟩
      prng := fun _ => rfl
      res0 := fun _ => rfl
      repairs := fun hn => absurd (by decide) hn
      wrap := fun _ => rfl
      coefs := fun _ _ => rfl
      values := fun _ _ => rfl
      bytes := hbytes
      storage := hstorage }

theorem performVsolve_frame {s t : State} (h : performVsolve s = .ok t) : CommandFrame .vsolve s t := by
  obtain ⟨heq, hcoefs, hstorage⟩ := performVsolve_ok h
  obtain ⟨c, rfl⟩ : ∃ c, t = { s with coef := c } := ⟨_, heq⟩
  exact
    { engineOnly := ⟨_, _, _, c, _, _, _, _, rfl⟩
      prng := fun _ => rfl
      res0 := fun _ => rfl
      repairs := fun _ => ⟨rfl, rfl⟩
      wrap := fun _ => rfl
      coefs := hcoefs
      values := fun _ _ => rfl
      bytes := fun _ _ => rfl
      storage := hstorage }

theorem performVrecon_frame {s t : State} (h : performVrecon s = .ok t) : CommandFrame .vrecon s t := by
  obtain ⟨heq, hbytes, hstorage⟩ := performVrecon_ok h
  obtain ⟨m, w, rfl⟩ : ∃ m w, t = { s with dmem := m, status := { s.status with wrap := w } } := ⟨_, _, heq⟩
  exact
    { engineOnly := ⟨_, _, _, _, _, m, _, w, rfl⟩
      prng := fun _ => rfl
      res0 := fun _ => rfl
      repairs := fun _ => ⟨rfl, rfl⟩
      wrap := fun hn => absurd rfl hn
      coefs := fun _ _ => rfl
      values := fun _ _ => rfl
      bytes := hbytes
      storage := hstorage }

/-- Every command that raises no error keeps to its write set. -/
theorem performInstr_frame {i : Instr} {s t : State} (h : performInstr i s = .ok t) : CommandFrame i s t := by
  cases i with
  | nop =>
    obtain rfl : s = t := Except.ok.inj h
    exact .of_bytes (.refl s _)
  | rseed => exact performRseed_frame h
  | rnext => exact performRnext_frame h
  | rgen => exact .of_mask (performRgen_ok h) (.inl rfl)
  | rmask => exact .of_mask (performRmask_ok h) (.inr rfl)
  | gmod => exact .of_res0 (performGmod_ok h) (by decide)
  | ginv => exact .of_res0 (performGinv_ok h) (by decide)
  | gadd => exact .of_res0 (performField_ok h) (by decide)
  | gsub => exact .of_res0 (performField_ok h) (by decide)
  | gmul => exact .of_res0 (performField_ok h) (by decide)
  | peval => exact .of_res0 (performPeval_ok h) (by decide)
  | pshare => exact performPshare_frame h
  | psharebuf => exact performPsharebuf_frame h
  | vsolve => exact performVsolve_frame h
  | vrecon => exact performVrecon_frame h
  | shide => exact .of_bytes (performShide_ok h)
  | sreveal => exact .of_bytes (performSreveal_ok h)

/-- What a command can do: complete a state that keeps to the write set, or enter an error on the state before it. -/
theorem exec_cases {i : Instr} {s t : State} (h : exec i s = .next t) :
    (∃ u, performInstr i s = .ok u ∧ CommandFrame i s u ∧ t = u.complete) ∨
      ∃ e, performInstr i s = .error e ∧ t = s.takeError e := by
  rw [exec_eq_finish] at h
  rcases finish_cases s (performInstr i s) with ⟨u, hu, hfin⟩ | ⟨e, he, hfin⟩
  · exact .inl ⟨u, hu, performInstr_frame hu, Host.Outcome.next.inj (h.symm.trans hfin)⟩
  · exact .inr ⟨e, he, Host.Outcome.next.inj (h.symm.trans hfin)⟩

/-- What the engine's turn can do: nothing while IDLE; else complete the pending command, or enter an error. -/
theorem engineStep_cases {s t : State} (h : engineStep s = .next t) :
    (s.phase = .idle ∧ t = s) ∨
      ∃ c, s.phase = .busy c ∧
        ((∃ i u, decode c = .ok i ∧ CommandFrame i s u ∧ t = u.complete) ∨ ∃ e, t = s.takeError e) := by
  unfold engineStep at h
  split at h
  · rename_i c hphase
    refine .inr ⟨c, hphase, ?_⟩
    unfold performWord at h
    split at h
    · rename_i i hi
      rcases exec_cases h with ⟨u, _, hframe, ht⟩ | ⟨e, _, ht⟩
      · exact .inl ⟨i, u, hi, hframe, ht⟩
      · exact .inr ⟨e, ht⟩
    · exact .inr ⟨_, (Host.Outcome.next.inj h).symm⟩
  · exact .inl ⟨‹_›, (Host.Outcome.next.inj h).symm⟩

/-- Settles O11, from the frame of a success and the error entry. -/
theorem commandsLeaveTheHostsStateAlone : Obligations.CommandsLeaveTheHostsStateAlone := by
  intro i s t h
  rcases exec_cases h with ⟨u, _, hframe, rfl⟩ | ⟨e, _, rfl⟩
  · obtain ⟨x, v, r, c, y, m, p, w, rfl⟩ := hframe.engineOnly
    simp
  · simp

/-- Settles O12: a completion without ERR is that of a success, which keeps to its write set. -/
theorem commandsWriteOnlyTheirWriteSet : Obligations.CommandsWriteOnlyTheirWriteSet := by
  intro i s t h _ hok
  rcases exec_cases h with ⟨u, _, hframe, rfl⟩ | ⟨e, _, rfl⟩
  · have hrest : u.xtab = s.xtab ∧ u.errinfo = s.errinfo ∧ u.status.errcode = s.status.errcode := by
      obtain ⟨x, v, r, c, y, m, p, w, rfl⟩ := hframe.engineOnly
      exact ⟨rfl, rfl, rfl⟩
    obtain ⟨hxtab, herrinfo, herrcode⟩ := hrest
    exact ⟨hframe.prng, hframe.res0, hframe.repairs, hframe.wrap, hframe.coefs, hframe.values, hframe.bytes, hxtab,
      herrinfo, herrcode, rfl, rfl, rfl⟩
  · cases hok

end Sys2Proof.Machine
end

section
/-!
PROOFS. What a host access and a whole step may change, said once, and the two invariants every step keeps
(10_state.md R45, R49; 20_memory.md R61; 60_exceptions.md R220).
-/

namespace Sys2Proof.Machine

/-! ### The host's turn -/

/-- A write of operands or data: STATUS, ERRINFO, the phase, the host and the parameters stay, and storage stays coherent. -/
structure DataWrite (s t : State) : Prop where
  params : t.params = s.params
  status : t.status = s.status
  errinfo : t.errinfo = s.errinfo
  phase : t.phase = s.phase
  storage : StorageCoherent s → StorageCoherent t

/-- A register write that keeps the storage as it is. -/
theorem DataWrite.of_register {s t : State} (hparams : t.params = s.params) (hstatus : t.status = s.status)
    (herrinfo : t.errinfo = s.errinfo) (hphase : t.phase = s.phase) (hx : t.xtab = s.xtab) (hy : t.ytab = s.ytab)
    (hc : t.coef = s.coef) (hd : t.dmem = s.dmem) : DataWrite s t :=
  ⟨hparams, hstatus, herrinfo, hphase, fun h => h.congr hx hy hc hd hparams⟩

theorem DataWrite.memWrite (s : State) {a n : Nat} (v : Word) (ha : a + n ≤ s.params.dmemSize) :
    DataWrite s (s.memWrite a n v) := by
  have hst (h : StorageCoherent s) : StorageCoherent (s.memWrite a n v) := h.memWrite v ha
  rw [State.memWrite_eq] at hst ⊢
  exact ⟨rfl, rfl, rfl, rfl, hst⟩

/-- What a host write of v can leave, one case per kind of target (R48, R63, R255). -/
inductive WriteEffect (s : State) (v : Word) : State → Prop where
  | illegal : WriteEffect s v s.flagAccess
  | readOnly : WriteEffect s v s
  | ctrl : WriteEffect s v (s.writeCtrl v)
  | status : WriteEffect s v (s.writeStatus v)
  | cmd : WriteEffect s v (s.offer v)
  | hazard : WriteEffect s v s.flagHazard
  | data {t : State} (h : DataWrite s t) : WriteEffect s v t

theorem WriteEffect.of_unlessBusy {s t : State} {v : Word} (h : DataWrite s t) : WriteEffect s v (s.unlessBusy t) := by
  rcases s.unlessBusy_cases t with ⟨_, hu⟩ | ⟨_, hu⟩
  · rw [hu]
    exact .hazard
  · rw [hu]
    exact .data h

theorem State.writeReg_effect (s : State) (r : Reg) (v : Word) : WriteEffect s v (s.writeReg r v) := by
  cases r with
  | ctrl => exact .ctrl
  | status => exact .status
  | cmd => exact .cmd
  | arg0 | arg1 | arg2 | arg3 | cfg | prngLo | prngHi =>
    exact .of_unlessBusy (.of_register rfl rfl rfl rfl rfl rfl rfl rfl)
  | id | res0 | repairs | errinfo | param | dmemsz => exact .readOnly

theorem State.busWrite_effect (s : State) (w : Width) (off v : Word) : WriteEffect s v (s.busWrite w off v) := by
  unfold State.busWrite
  split
  · exact .illegal
  · exact s.writeReg_effect _ v
  · rename_i j htarget
    exact .of_unlessBusy ⟨rfl, rfl, rfl, rfl, fun h => h.setX _ (accessTarget_bounds htarget)⟩
  · rename_i j htarget
    exact .of_unlessBusy ⟨rfl, rfl, rfl, rfl, fun h => h.setY _ (accessTarget_bounds htarget)⟩
  · rename_i j htarget
    exact .of_unlessBusy ⟨rfl, rfl, rfl, rfl, fun h => h.setCoef _ (accessTarget_bounds htarget)⟩
  · rename_i a htarget
    exact .of_unlessBusy (.memWrite s v (accessTarget_bounds htarget))

/-- What the host's turn can do: at most one bus access, besides its own position and variables. -/
inductive HostEffect (s : State) : State → Prop where
  | silent : HostEffect s s
  | write (w : Width) (off v : Word) : HostEffect s (s.busWrite w off v)
  | read (w : Width) (off : Word) : HostEffect s (s.busRead w off).2

theorem State.goTo_next {s t : State} {l : Nat} (h : s.goTo l = .next t) : ∃ g, t = { s with host := g } := by
  unfold State.goTo at h
  split at h
  · exact ⟨_, (Host.Outcome.next.inj h).symm⟩
  · cases h

theorem performStmt_effect {st : Stmt} {s t : State} (h : performStmt st s = .next t) :
    ∃ u g, HostEffect s u ∧ t = { u with host := g } := by
  cases st with
  | write w off v =>
    simp only [performStmt] at h
    split at h
    · exact ⟨_, _, .write w off _, (Host.Outcome.next.inj h).symm⟩
    · cases h
  | read w off x => exact ⟨_, _, .read w off, (Host.Outcome.next.inj h).symm⟩
  | label l => exact ⟨s, _, .silent, (Host.Outcome.next.inj h).symm⟩
  | bit x b l =>
    simp only [performStmt] at h
    split at h
    · split at h
      · obtain ⟨g, hg⟩ := State.goTo_next h
        exact ⟨s, g, .silent, hg⟩
      · exact ⟨s, _, .silent, (Host.Outcome.next.inj h).symm⟩
    · cases h
  | expect x v =>
    simp only [performStmt] at h
    split at h
    · split at h
      · exact ⟨s, _, .silent, (Host.Outcome.next.inj h).symm⟩
      · cases h
    · cases h
    · cases h
  | jump l =>
    obtain ⟨g, hg⟩ := State.goTo_next h
    exact ⟨s, g, .silent, hg⟩
  | stop => exact ⟨s, _, .silent, (Host.Outcome.next.inj h).symm⟩

theorem hostStep_effect {s t : State} (h : hostStep s = .next t) : ∃ u g, HostEffect s u ∧ t = { u with host := g } := by
  unfold hostStep at h
  split at h
  · exact performStmt_effect h
  · exact ⟨s, _, .silent, (Host.Outcome.next.inj h).symm⟩

/-! ### Any agent's turn -/

/-- A property that does not look at the host or the schedule, and that the power supply, the engine and every host access
keep, is kept by every step. -/
theorem step_keeps {inv : State → State → Prop}
    (hschedule : ∀ s rest t, inv { s with schedule := rest } t → inv s t)
    (hhost : ∀ s u g, inv s u → inv s { u with host := g })
    (heffect : ∀ s u, HostEffect s u → inv s u)
    (hengine : ∀ s t, engineStep s = .next t → inv s t)
    (hpower : ∀ s, inv s s.powerOnReset) {s t : State} (h : step s = .next t) : inv s t := by
  have host {s t : State} (h : hostStep s = .next t) : inv s t := by
    obtain ⟨u, g, hu, rfl⟩ := hostStep_effect h
    exact hhost s u g (heffect s u hu)
  rcases step_cases s with ⟨rest, _, hs⟩ | ⟨rest, _, hs⟩ | ⟨rest, _, hs⟩ | ⟨_, _, hs⟩ | ⟨_, _, hs⟩
  · exact hschedule s rest t (host (hs.symm.trans h))
  · exact hschedule s rest t (hengine _ t (hs.symm.trans h))
  · obtain rfl := Host.Outcome.next.inj (hs.symm.trans h)
    exact hschedule s rest _ (hpower _)
  · exact hengine s t (hs.symm.trans h)
  · exact host (hs.symm.trans h)

/-! ### STATUS -/

/-- StatusCoherent looks at the phase, BUSY, DONE, ERR, ERRCODE and ERRINFO only. -/
theorem StatusCoherent.congr {s t : State} (h : StatusCoherent s) (hphase : t.phase = s.phase)
    (hbusy : t.status.busy = s.status.busy) (hdone : t.status.done = s.status.done)
    (herr : t.status.err = s.status.err) (hcode : t.status.errcode = s.status.errcode)
    (hinfo : t.errinfo = s.errinfo) : StatusCoherent t := by
  have hpending : t.commandPending = s.commandPending := by simp only [State.commandPending, hphase]
  obtain ⟨h1, h2, h3, h4⟩ := h
  exact ⟨by rw [hbusy, hpending, h1], by rwa [hpending, herr, hdone], by rwa [herr, hcode, hinfo], by rwa [herr, hcode]⟩

/-- Every reset leaves STATUS and ERRINFO clear and the phase IDLE. -/
theorem StatusCoherent.of_reset {s : State} (hphase : s.phase = .idle) (hstatus : s.status = Status.zero)
    (hinfo : s.errinfo = 0#32) : StatusCoherent s := by
  have hpending : s.commandPending = false := by simp only [State.commandPending, hphase]
  refine ⟨?_, ?_, ?_, ?_⟩ <;> simp [hpending, hstatus, hinfo, Status.zero]

theorem StatusCoherent.complete {s : State} (h : StatusCoherent s) : StatusCoherent s.complete :=
  ⟨rfl, nofun, h.no_error_zero, h.error_code⟩

theorem takeError_statusCoherent (s : State) (e : EngineError) : StatusCoherent (s.takeError e) :=
  ⟨rfl, nofun, nofun, fun _ => e.kind.code_range⟩

theorem softReset_statusCoherent (s : State) : StatusCoherent s.softReset := by
  rcases s.softReset_cases with ⟨_, hs⟩ | ⟨c, _, hs⟩ <;> rw [hs] <;> exact .of_reset rfl rfl rfl

theorem StatusCoherent.writeCtrl {s : State} (h : StatusCoherent s) (v : Word) : StatusCoherent (s.writeCtrl v) := by
  rcases s.writeCtrl_cases v with ⟨_, hs⟩ | ⟨_, hs⟩ <;> rw [hs]
  · exact softReset_statusCoherent s
  · exact h.congr rfl rfl rfl rfl rfl rfl

/-- A STATUS write with bit 2 set clears the report whole (R27, R224). -/
theorem State.writeStatus_clears_report (s : State) {w : Word} (hw : w.getLsbD 2 = true) :
    (s.writeStatus w).status.err = false ∧ (s.writeStatus w).status.errcode = 0#8 ∧
      (s.writeStatus w).errinfo = 0#32 := by
  simp only [State.writeStatus, Status.writeOneToClear, hw, Bool.not_true, Bool.and_false, if_true, and_self]

/-- A STATUS write with bit 2 clear keeps the report whole (R27). -/
theorem State.writeStatus_keeps_report (s : State) {w : Word} (hw : w.getLsbD 2 = false) :
    (s.writeStatus w).status.err = s.status.err ∧ (s.writeStatus w).status.errcode = s.status.errcode ∧
      (s.writeStatus w).errinfo = s.errinfo := by
  simp only [State.writeStatus, Status.writeOneToClear, hw, Bool.not_false, Bool.and_true, Bool.false_eq_true, if_false,
    and_self]

theorem StatusCoherent.writeStatus {s : State} (h : StatusCoherent s) (w : Word) : StatusCoherent (s.writeStatus w) := by
  obtain ⟨hbusy, hclean, hzero, hcode⟩ := h
  have hpending : s.commandPending = true →
      (s.writeStatus w).status.err = false ∧ (s.writeStatus w).status.done = false := by
    intro hp
    obtain ⟨herr, hdone⟩ := hclean hp
    simp [State.writeStatus, Status.writeOneToClear, herr, hdone]
  cases hw : w.getLsbD 2 with
  | true =>
    obtain ⟨herr, hcode0, hinfo0⟩ := s.writeStatus_clears_report hw
    exact ⟨hbusy, hpending, fun _ => ⟨hcode0, hinfo0⟩, fun h => absurd (herr.symm.trans h) Bool.false_ne_true⟩
  | false =>
    obtain ⟨herr, hcode', hinfo⟩ := s.writeStatus_keeps_report hw
    exact ⟨hbusy, hpending, by rwa [herr, hcode', hinfo], by rwa [herr, hcode']⟩

/-- Acceptance sets BUSY with the phase, and asks for ERR = 0. -/
theorem StatusCoherent.offer {s : State} (h : StatusCoherent s) (w : Word) : StatusCoherent (s.offer w) := by
  rcases s.offer_cases w with ⟨_, hs⟩ | ⟨_, herr, hs⟩ <;> rw [hs]
  · exact h.congr rfl rfl rfl rfl rfl rfl
  · exact ⟨rfl, fun _ => ⟨herr, rfl⟩, h.no_error_zero, h.error_code⟩

theorem WriteEffect.statusCoherent {s u : State} {v : Word} (hu : WriteEffect s v u) (h : StatusCoherent s) :
    StatusCoherent u := by
  cases hu with
  | illegal | hazard => exact h.congr rfl rfl rfl rfl rfl rfl
  | readOnly => exact h
  | ctrl => exact h.writeCtrl v
  | status => exact h.writeStatus v
  | cmd => exact h.offer v
  | data hw =>
    have hstatus := hw.status
    exact h.congr hw.phase (by rw [hstatus]) (by rw [hstatus]) (by rw [hstatus]) (by rw [hstatus]) hw.errinfo

theorem StatusCoherent.busRead {s : State} (h : StatusCoherent s) (w : Width) (off : Word) :
    StatusCoherent (s.busRead w off).2 := by
  rcases s.busRead_state w off with ⟨hs, _⟩ | ⟨d, hs⟩ <;> rw [hs] <;> exact h.congr rfl rfl rfl rfl rfl rfl

theorem StatusCoherent.hostEffect {s u : State} (h : StatusCoherent s) (hu : HostEffect s u) : StatusCoherent u := by
  cases hu with
  | silent => exact h
  | write w off v => exact (s.busWrite_effect w off v).statusCoherent h
  | read w off => exact h.busRead w off

theorem CommandFrame.statusCoherent {i : Instr} {s t : State} (hframe : CommandFrame i s t) (h : StatusCoherent s) :
    StatusCoherent t := by
  obtain ⟨x, v, r, c, y, m, p, w, rfl⟩ := hframe.engineOnly
  exact h.congr rfl rfl rfl rfl rfl rfl

theorem StatusCoherent.engineStep {s t : State} (h : StatusCoherent s) (ht : engineStep s = .next t) :
    StatusCoherent t := by
  rcases engineStep_cases ht with ⟨_, rfl⟩ | ⟨c, _, ⟨i, u, _, hframe, rfl⟩ | ⟨e, rfl⟩⟩
  · exact h
  · exact (hframe.statusCoherent h).complete
  · exact takeError_statusCoherent s e

/-- Settles O58: each agent's turn keeps STATUS coherent. -/
theorem everyStepKeepsStatusCoherent : Obligations.EveryStepKeepsStatusCoherent := by
  intro s t hs hstep
  refine step_keeps (inv := fun s t => StatusCoherent s → StatusCoherent t) ?schedule ?host ?effect ?engine ?power hstep hs
  case schedule => exact fun s rest t ht hs => ht (hs.congr rfl rfl rfl rfl rfl rfl)
  case host => exact fun s u g hu hs => (hu hs).congr rfl rfl rfl rfl rfl rfl
  case effect => exact fun s u hu hs => hs.hostEffect hu
  case engine => exact fun s t ht hs => hs.engineStep ht
  case power => exact fun s _ => .of_reset rfl rfl rfl

/-! ### Storage -/

/-- An abandoned command's free draws fall on locations that exist (R251, R61). -/
theorem StorageCoherent.abandon {s : State} (h : StorageCoherent s) (c : Word) : StorageCoherent (s.abandon c) := by
  have hk : s.cfgK.toNat ≤ 256 := Nat.le_of_lt s.cfgK.isLt
  have hn : s.cfgN.toNat ≤ 256 := Nat.le_of_lt s.cfgN.isLt
  unfold State.abandon
  split
  · exact h
  · rename_i i _
    cases i with
    | nop | rseed | rnext | gmod | ginv | gadd | gsub | gmul | peval => exact h
    | rgen | rmask | vrecon | shide | sreveal => exact h.scrambleBytes _ _
    | pshare => exact (h.scrambleCoef hk).scrambleY hn
    | psharebuf => exact forUp_induct (fun _ t => StorageCoherent t) (h.scrambleBytes _ _) fun _ _ _ ht =>
        ht.scrambleBytes _ _
    | vsolve => exact h.scrambleCoef hk

/-- What each turn keeps: the parameters, and the storage coherent. -/
structure KeepsStorage (s t : State) : Prop where
  params : t.params = s.params
  storage : StorageCoherent s → StorageCoherent t

/-- A step that leaves the tables and DMEM as they are. -/
theorem KeepsStorage.of_eq {s t : State} (hx : t.xtab = s.xtab) (hy : t.ytab = s.ytab) (hc : t.coef = s.coef)
    (hd : t.dmem = s.dmem) (hp : t.params = s.params) : KeepsStorage s t :=
  ⟨hp, fun h => h.congr hx hy hc hd hp⟩

theorem KeepsStorage.trans {s t u : State} (h : KeepsStorage s t) (h' : KeepsStorage t u) : KeepsStorage s u :=
  ⟨h'.params.trans h.params, fun hs => h'.storage (h.storage hs)⟩

theorem softReset_keepsStorage (s : State) : KeepsStorage s s.softReset := by
  rcases s.softReset_cases with ⟨_, hs⟩ | ⟨c, _, hs⟩ <;> rw [hs]
  · exact .of_eq rfl rfl rfl rfl rfl
  · refine ⟨?_, fun h => (h.abandon c).resetRegisters⟩
    obtain ⟨m, k, y, d, ha⟩ := s.abandon_eq c
    rw [ha]
    rfl

theorem WriteEffect.keepsStorage {s u : State} {v : Word} (h : WriteEffect s v u) : KeepsStorage s u := by
  cases h with
  | illegal | readOnly | status | hazard => exact .of_eq rfl rfl rfl rfl rfl
  | ctrl =>
    rcases s.writeCtrl_cases v with ⟨_, hs⟩ | ⟨_, hs⟩ <;> rw [hs]
    · exact softReset_keepsStorage s
    · exact .of_eq rfl rfl rfl rfl rfl
  | cmd =>
    rcases s.offer_cases v with ⟨_, hs⟩ | ⟨_, _, hs⟩ <;> rw [hs] <;> exact .of_eq rfl rfl rfl rfl rfl
  | data hw => exact ⟨hw.params, hw.storage⟩

theorem busRead_keepsStorage (s : State) (w : Width) (off : Word) : KeepsStorage s (s.busRead w off).2 := by
  rcases s.busRead_state w off with ⟨hs, _⟩ | ⟨d, hs⟩ <;> rw [hs] <;> exact .of_eq rfl rfl rfl rfl rfl

theorem HostEffect.keepsStorage {s u : State} (h : HostEffect s u) : KeepsStorage s u := by
  cases h with
  | silent => exact ⟨rfl, id⟩
  | write w off v => exact (s.busWrite_effect w off v).keepsStorage
  | read w off => exact busRead_keepsStorage s w off

theorem CommandFrame.keepsStorage {i : Instr} {s t : State} (h : CommandFrame i s t) : KeepsStorage s t := by
  refine ⟨?_, h.storage⟩
  obtain ⟨x, v, r, c, y, m, p, w, rfl⟩ := h.engineOnly
  rfl

theorem engineStep_keepsStorage {s t : State} (h : engineStep s = .next t) : KeepsStorage s t := by
  rcases engineStep_cases h with ⟨_, rfl⟩ | ⟨c, _, ⟨i, u, _, hframe, rfl⟩ | ⟨e, rfl⟩⟩
  · exact ⟨rfl, id⟩
  · exact hframe.keepsStorage.trans (.of_eq rfl rfl rfl rfl rfl)
  · exact .of_eq rfl rfl rfl rfl rfl

theorem step_keepsStorage {s t : State} (h : step s = .next t) : KeepsStorage s t := by
  refine step_keeps (inv := KeepsStorage) ?schedule ?host ?effect ?engine ?power h
  case schedule => exact fun s rest t ht => .trans (t := { s with schedule := rest }) (.of_eq rfl rfl rfl rfl rfl) ht
  case host => exact fun s u g hu => hu.trans (.of_eq rfl rfl rfl rfl rfl)
  case effect => exact fun s u hu => hu.keepsStorage
  case engine => exact fun s t ht => engineStep_keepsStorage ht
  case power => exact fun s => ⟨rfl, fun _ => powerOnReset_storageCoherent s⟩

/-- Settles O59: each agent's turn keeps the storage coherent and the parameters as they are. -/
theorem everyStepKeepsStorageCoherent : Obligations.EveryStepKeepsStorageCoherent :=
  fun _ _ hs hstep => ⟨(step_keepsStorage hstep).storage hs, (step_keepsStorage hstep).params⟩

end Sys2Proof.Machine
end

section
/-!
PROOFS. The registers and tables as the host sees them (10_state.md R24 to R40, R46, R48, R49): which offset reaches which
register or entry, what a read returns and what a write sets, and the interrupt output.
-/

namespace Sys2Proof.Machine

/-! ### Where an offset leads -/

/-- The offset of each register (R48). -/
def Reg.offset (r : Reg) : Word :=
  match r with
  | .id => Offset.id
  | .ctrl => Offset.ctrl
  | .status => Offset.status
  | .cmd => Offset.cmd
  | .arg0 => Offset.arg0
  | .arg1 => Offset.arg1
  | .arg2 => Offset.arg2
  | .arg3 => Offset.arg3
  | .res0 => Offset.res0
  | .cfg => Offset.cfg
  | .prngLo => Offset.prngLo
  | .prngHi => Offset.prngHi
  | .repairs => Offset.repairs
  | .errinfo => Offset.errinfo
  | .param => Offset.param
  | .dmemsz => Offset.dmemsz

theorem accessTarget_offset (p : Params) (r : Reg) : accessTarget p .w32 r.offset = some (.reg r) := by
  cases r <;> rfl

theorem State.busRead_register (s : State) (r : Reg) : s.busRead .w32 r.offset = s.readReg r := by
  rw [State.busRead, accessTarget_offset]

theorem State.busWrite_register (s : State) (r : Reg) (v : Word) : s.busWrite .w32 r.offset v = s.writeReg r v := by
  rw [State.busWrite, accessTarget_offset]

/-- Outside the BUSY window every register reads as its value, and the read changes nothing. -/
theorem State.busRead_register_idle {s : State} (h : s.status.busy = false) (r : Reg) :
    s.busRead .w32 r.offset = (s.regValue r, s) := by
  simp [State.busRead_register, State.readReg, h]

/-- A register that no command writes reads as its value in the BUSY window too (R256). -/
theorem State.busRead_register_stable (s : State) {r : Reg} (h : r.unstable = false) :
    s.busRead .w32 r.offset = (s.regValue r, s) := by
  simp [State.busRead_register, State.readReg, h]

/-- An aligned word access in the register and table block. -/
theorem accessTarget_word (p : Params) {o : Nat} (ho : o < 0x1000) (ha : o % 4 = 0) :
    accessTarget p .w32 (BitVec.ofNat 32 o) = wordTarget o := by
  have hmod : (BitVec.ofNat 32 o).toNat = o := by
    rw [BitVec.toNat_ofNat]
    omega
  simp [accessTarget, hmod, ho, ha]

theorem accessTarget_xtab (p : Params) {j : Nat} (hj : j < 256) :
    accessTarget p .w32 (BitVec.ofNat 32 (0x400 + 4 * j)) = some (.xtab j) := by
  rw [accessTarget_word p (by omega) (by omega), wordTarget, if_neg (by omega), if_pos (by omega)]
  congr 2
  omega

theorem accessTarget_ytab (p : Params) {j : Nat} (hj : j < 256) :
    accessTarget p .w32 (BitVec.ofNat 32 (0x800 + 4 * j)) = some (.ytab j) := by
  rw [accessTarget_word p (by omega) (by omega), wordTarget, if_neg (by omega), if_neg (by omega), if_pos (by omega)]
  congr 2
  omega

theorem accessTarget_coef (p : Params) {j : Nat} (hj : j < 256) :
    accessTarget p .w32 (BitVec.ofNat 32 (0xC00 + 4 * j)) = some (.coef j) := by
  rw [accessTarget_word p (by omega) (by omega), wordTarget, if_neg (by omega), if_neg (by omega), if_neg (by omega)]
  congr 2
  omega

/-! ### Table entries -/

/-- Outside the BUSY window a write to XTAB[j] sets that entry (R38, R49). -/
theorem State.busWrite_xtab {s : State} {j : Nat} (v : Word) (hb : s.status.busy = false) (hj : j < 256) :
    s.busWrite .w32 (BitVec.ofNat 32 (0x400 + 4 * j)) v = s.setX j (v.extractLsb' 0 8) := by
  rw [State.busWrite, accessTarget_xtab _ hj]
  exact State.unlessBusy_of_idle _ hb

theorem State.busWrite_ytab {s : State} {j : Nat} (v : Word) (hb : s.status.busy = false) (hj : j < 256) :
    s.busWrite .w32 (BitVec.ofNat 32 (0x800 + 4 * j)) v = s.setY j (v.extractLsb' 0 9) := by
  rw [State.busWrite, accessTarget_ytab _ hj]
  exact State.unlessBusy_of_idle _ hb

theorem State.busWrite_coef {s : State} {j : Nat} (v : Word) (hb : s.status.busy = false) (hj : j < 256) :
    s.busWrite .w32 (BitVec.ofNat 32 (0xC00 + 4 * j)) v = s.setCoef j (v.extractLsb' 0 9) := by
  rw [State.busWrite, accessTarget_coef _ hj]
  exact State.unlessBusy_of_idle _ hb

theorem State.busRead_xtab (s : State) {j : Nat} (hj : j < 256) :
    s.busRead .w32 (BitVec.ofNat 32 (0x400 + 4 * j)) = ((s.xEntry j).zeroExtend 32, s) := by
  rw [State.busRead, accessTarget_xtab _ hj]

theorem State.busRead_ytab {s : State} {j : Nat} (hb : s.status.busy = false) (hj : j < 256) :
    s.busRead .w32 (BitVec.ofNat 32 (0x800 + 4 * j)) = ((s.yEntry j).zeroExtend 32, s) := by
  rw [State.busRead, accessTarget_ytab _ hj]
  simp [State.readEntry, hb]

theorem State.busRead_coef {s : State} {j : Nat} (hb : s.status.busy = false) (hj : j < 256) :
    s.busRead .w32 (BitVec.ofNat 32 (0xC00 + 4 * j)) = ((s.coefEntry j).zeroExtend 32, s) := by
  rw [State.busRead, accessTarget_coef _ hj]
  simp [State.readEntry, hb]

/-- The low n bits of a word, zero-extended. -/
theorem toNat_low_zeroExtend (v : Word) {n : Nat} (hn : n ≤ 32) :
    ((v.extractLsb' 0 n).zeroExtend 32).toNat = v.toNat % 2 ^ n := by
  have hlt : v.toNat % 2 ^ n < 2 ^ 32 :=
    Nat.lt_of_lt_of_le (Nat.mod_lt _ (Nat.two_pow_pos n)) (Nat.pow_le_pow_right (by decide) hn)
  simpa using Nat.mod_eq_of_lt hlt

/-- Settles O52: a write and a read of one entry, for each of the three tables. -/
theorem tableEntriesReadBack : Obligations.TableEntriesReadBack := by
  intro s j v hb hj
  refine ⟨⟨_, s.busWrite_xtab v hb hj, rfl, ?xRead, fun i hi => s.xEntry_setX_other _ hi⟩,
    ⟨_, s.busWrite_ytab v hb hj, rfl, ?yRead, fun i hi => s.yEntry_setY_other _ hi⟩,
    ⟨_, s.busWrite_coef v hb hj, rfl, ?coefRead, fun i hi => s.coefEntry_setCoef_other _ hi⟩⟩
  case xRead =>
    rw [State.busRead_xtab _ hj, State.xEntry_setX_same]
    exact toNat_low_zeroExtend v (by decide)
  case yRead =>
    rw [State.busRead_ytab (s := s.setY j _) hb hj, State.yEntry_setY_same]
    exact toNat_low_zeroExtend v (by decide)
  case coefRead =>
    rw [State.busRead_coef (s := s.setCoef j _) hb hj, State.coefEntry_setCoef_same]
    exact toNat_low_zeroExtend v (by decide)

/-! ### STATUS -/

/-- Settles O44: the target is STATUS, and its write is the write-1-to-clear of R27 in and out of the BUSY window. -/
theorem statusWriteClearsOnes : Obligations.StatusWriteClearsOnes :=
  fun s w => s.busWrite_register .status w

theorem State.busRead_status (s : State) : s.busRead .w32 Offset.status = (s.status.word, s) :=
  s.busRead_register_stable (r := .status) rfl

/-- An append as a number. -/
theorem toNat_append_eq {m n : Nat} (x : BitVec m) (y : BitVec n) : (x ++ y).toNat = x.toNat * 2 ^ n + y.toNat := by
  rw [BitVec.toNat_append, ← Nat.shiftLeft_add_eq_or_of_lt y.isLt, Nat.shiftLeft_eq]

/-- A slice as a number. -/
theorem toNat_extractLsb'_eq {n : Nat} (x : BitVec n) (start len : Nat) :
    (x.extractLsb' start len).toNat = x.toNat / 2 ^ start % 2 ^ len := by
  rw [BitVec.extractLsb'_toNat, Nat.shiftRight_eq_div_pow]

/-- A bit is known by its digit. -/
theorem getLsbD_of_digit {n i : Nat} {x : BitVec n} {b : Bool} (h : x.toNat / 2 ^ i % 2 = b.toNat) : x.getLsbD i = b := by
  rw [BitVec.getLsbD, Nat.testBit_eq_decide_div_mod_eq, h]
  cases b <;> rfl

/-- STATUS as a number: each flag at its weight, ERRCODE above (R26). -/
theorem Status.toNat_word (t : Status) :
    t.word.toNat = t.busy.toNat + t.done.toNat * 2 + t.err.toNat * 4 + t.rpr.toNat * 8 + t.wrap.toNat * 16 +
      t.drop.toNat * 32 + t.hzd.toNat * 64 + t.accerr.toNat * 128 + t.errcode.toNat * 256 := by
  refine (toNat_append_eq (0#16 ++ t.errcode) _).trans ?_
  simp only [toNat_append_eq, BitVec.toNat_ofBool, BitVec.toNat_ofNat]
  omega

/-- Settles O46: every field is a digit of STATUS as a number. -/
theorem statusWordLayout : Obligations.StatusWordLayout := by
  intro s
  refine ⟨congrArg Prod.snd s.busRead_status, fun v hv => ?_⟩
  obtain rfl : v = s.status.word := hv.trans (congrArg Prod.fst s.busRead_status)
  generalize s.status = t
  have hword := t.toNat_word
  have hbusy := t.busy.toNat_le
  have hdone := t.done.toNat_le
  have herr := t.err.toNat_le
  have hrpr := t.rpr.toNat_le
  have hwrap := t.wrap.toNat_le
  have hdrop := t.drop.toNat_le
  have hhzd := t.hzd.toNat_le
  have haccerr := t.accerr.toNat_le
  have herrcode := t.errcode.isLt
  refine ⟨getLsbD_of_digit ?_, getLsbD_of_digit ?_, getLsbD_of_digit ?_, getLsbD_of_digit ?_, getLsbD_of_digit ?_,
    getLsbD_of_digit ?_, getLsbD_of_digit ?_, getLsbD_of_digit ?_, BitVec.eq_of_toNat_eq ?code,
    BitVec.eq_of_toNat_eq ?zero⟩
  case code =>
    rw [toNat_extractLsb'_eq]
    omega
  case zero =>
    rw [toNat_extractLsb'_eq, BitVec.toNat_ofNat]
    omega
  all_goals omega

/-! ### CTRL, the ARGs, CFG and the PRNG registers -/

/-- The registers whose write outside the BUSY window is that of a field, as one equation. -/
theorem State.busWrite_field {s t : State} {r : Reg} {v : Word} (hb : s.status.busy = false)
    (hw : s.writeReg r v = s.unlessBusy t) : s.busWrite .w32 r.offset v = t := by
  rw [State.busWrite_register, hw, State.unlessBusy_of_idle _ hb]

/-- A CTRL write with SRST = 0 sets IE alone (R25). -/
theorem State.busWrite_ctrl_ie (s : State) {v : Word} (h : v.getLsbD 1 = false) :
    s.busWrite .w32 Offset.ctrl v = { s with ie := v.getLsbD 0 } := by
  rcases s.writeCtrl_cases v with ⟨hsrst, _⟩ | ⟨_, hs⟩
  · exact absurd (h.symm.trans hsrst) Bool.false_ne_true
  · exact (s.busWrite_register .ctrl v).trans hs

theorem zeroExtend_ofBool (b : Bool) : (BitVec.ofBool b).zeroExtend 32 = if b = true then 1#32 else 0#32 := by
  cases b <;> rfl

/-- CFG as a number (R31). -/
theorem State.toNat_cfgValue (s : State) : (s.regValue .cfg).toNat = s.cfgN.toNat * 2 ^ 8 + s.cfgK.toNat := by
  have hk := s.cfgK.isLt
  have hn := s.cfgN.isLt
  rw [State.regValue, BitVec.toNat_setWidth, toNat_append_eq]
  omega

theorem State.toNat_busRead_cfg {s : State} (h : s.status.busy = false) :
    (s.busRead .w32 Offset.cfg).1.toNat = s.cfgN.toNat * 2 ^ 8 + s.cfgK.toNat :=
  (congrArg (fun p : Word × State => p.1.toNat) (State.busRead_register_idle h .cfg)).trans s.toNat_cfgValue

/-- PRNG_LO as a number (R32). -/
theorem State.toNat_prngLoValue (s : State) : (s.regValue .prngLo).toNat = s.prng.toNat % 2 ^ 32 := by
  rw [State.regValue, toNat_extractLsb'_eq, pow_zero, Nat.div_one]

/-- PRNG_HI as a number (R32). -/
theorem State.toNat_prngHiValue (s : State) : (s.regValue .prngHi).toNat = s.prng.toNat / 2 ^ 32 := by
  have hs := s.prng.isLt
  rw [State.regValue, BitVec.toNat_setWidth, toNat_extractLsb'_eq]
  omega

/-- A PRNG_LO write replaces bits 31:0 of S (R32). -/
theorem toNat_prngLo_written (x : PrngState) (v : Word) :
    BitVec.toNat (x.extractLsb' 32 16 ++ v) = x.toNat / 2 ^ 32 * 2 ^ 32 + v.toNat := by
  have hx := x.isLt
  rw [toNat_append_eq, toNat_extractLsb'_eq]
  omega

/-- A PRNG_HI write replaces bits 47:32 of S (R32). -/
theorem toNat_prngHi_written (x : PrngState) (v : Word) :
    BitVec.toNat (v.extractLsb' 0 16 ++ x.extractLsb' 0 32) = v.toNat % 2 ^ 16 * 2 ^ 32 + x.toNat % 2 ^ 32 := by
  rw [toNat_append_eq, toNat_extractLsb'_eq, toNat_extractLsb'_eq]
  omega

/-- Settles O51: register by register, through what a read and a write of each is outside the BUSY window. -/
theorem registersReadBack : Obligations.RegistersReadBack := by
  intro s v hb
  have hread := State.busRead_register_idle hb
  have hcfg : s.busWrite .w32 Offset.cfg v = { s with cfgK := v.extractLsb' 0 8, cfgN := v.extractLsb' 8 8 } :=
    State.busWrite_field (r := .cfg) hb rfl
  have hk : (v.extractLsb' 0 8).toNat = v.toNat % 2 ^ 8 := by rw [toNat_extractLsb'_eq, pow_zero, Nat.div_one]
  have hn : (v.extractLsb' 8 8).toNat = v.toNat / 2 ^ 8 % 2 ^ 8 := toNat_extractLsb'_eq v 8 8
  have harg0 : s.busWrite .w32 Offset.arg0 v = { s with arg0 := v } := State.busWrite_field (r := .arg0) hb rfl
  have harg1 : s.busWrite .w32 Offset.arg1 v = { s with arg1 := v } := State.busWrite_field (r := .arg1) hb rfl
  have harg2 : s.busWrite .w32 Offset.arg2 v = { s with arg2 := v } := State.busWrite_field (r := .arg2) hb rfl
  have harg3 : s.busWrite .w32 Offset.arg3 v = { s with arg3 := v } := State.busWrite_field (r := .arg3) hb rfl
  refine ⟨harg0, harg1, harg2, harg3, hread .arg0, hread .arg1, hread .arg2, hread .arg3, ?args, ?cfgBack,
    s.busWrite_ctrl_ie, ?ctrl, ⟨_, hread .status, ?status⟩, hread .cmd, hread .res0, hread .repairs, hread .errinfo,
    ⟨_, _, hcfg, hk, hn⟩, ⟨_, hread .cfg, s.toNat_cfgValue⟩,
    ⟨_, State.busWrite_field (r := .prngLo) hb rfl, toNat_prngLo_written s.prng v⟩,
    ⟨_, State.busWrite_field (r := .prngHi) hb rfl, toNat_prngHi_written s.prng v⟩,
    ⟨_, hread .prngLo, s.toNat_prngLoValue⟩, ⟨_, hread .prngHi, s.toNat_prngHiValue⟩⟩
  case args =>
    have hback {t : State} (r : Reg) (ht : t.status = s.status) (hv : t.regValue r = v) :
        (t.busRead .w32 r.offset).1 = v := by
      rw [State.busRead_register_idle (by rw [ht]; exact hb), hv]
    simp only [List.forall_mem_cons]
    exact ⟨harg0 ▸ hback .arg0 rfl rfl, harg1 ▸ hback .arg1 rfl rfl, harg2 ▸ hback .arg2 rfl rfl,
      harg3 ▸ hback .arg3 rfl rfl, nofun⟩
  case cfgBack =>
    rw [hcfg]
    refine (State.toNat_busRead_cfg (by exact hb)).trans ?_
    simp only [hk, hn]
    omega
  case ctrl =>
    exact (hread .ctrl).trans (congrArg (·, s) (zeroExtend_ofBool s.ie))
  case status =>
    simpa [State.regValue, hb] using s.status.toNat_word

/-! ### Read-only registers -/

/-- Settles O53: each read-only register's write is no change, and the constants fit their words for legal parameters. -/
theorem readOnlyRegistersIgnoreWrites : Obligations.ReadOnlyRegistersIgnoreWrites := by
  intro s v ⟨⟨_, hkMax⟩, ⟨_, _, hsize⟩, _⟩
  have hread {r : Reg} := s.busRead_register_stable (r := r)
  refine ⟨?writes, hread (r := .id) rfl, hread (r := .cmd) rfl, ⟨_, hread (r := .param) rfl, ?param⟩,
    ⟨_, hread (r := .dmemsz) rfl, ?dmemsz⟩⟩
  case writes =>
    simp only [List.forall_mem_cons]
    exact ⟨s.busWrite_register .id v, s.busWrite_register .res0 v, s.busWrite_register .repairs v,
      s.busWrite_register .errinfo v, s.busWrite_register .param v, s.busWrite_register .dmemsz v, nofun⟩
  case param =>
    rw [State.regValue, paramWord, BitVec.toNat_ofNat]
    split <;> omega
  case dmemsz =>
    rw [State.regValue, BitVec.toNat_ofNat]
    omega

/-! ### The interrupt output -/

theorem exec_irq {i : Instr} {s t : State} (h : exec i s = .next t) : t.irq = s.ie := by
  have hie : t.ie = s.ie := (commandsLeaveTheHostsStateAlone i s t h).1
  have hdone : t.status.done = true := by
    rcases exec_cases h with ⟨u, _, _, rfl⟩ | ⟨e, _, rfl⟩ <;> rfl
  rw [State.irq, hie, hdone, Bool.and_true]

theorem softReset_irq (s : State) : s.softReset.irq = false := by
  rcases s.softReset_cases with ⟨_, hs⟩ | ⟨c, _, hs⟩ <;> rw [hs] <;> rfl

/-- Without DONE there is no interrupt. -/
theorem State.irq_of_not_done {s : State} (h : s.status.done = false) : s.irq = false := by
  rw [State.irq, h, Bool.and_false]

/-- Settles O56: who raises, clears and masks the level. -/
theorem interruptIsTheLevel : Obligations.InterruptIsTheLevel := by
  refine ⟨fun _ => rfl, fun i s t => exec_irq, ?engine, ?clear, ?accept, ?srst, fun _ => rfl, fun _ => rfl, ?mask⟩
  case engine =>
    intro c s t hphase h
    rcases engineStep_cases h with ⟨hidle, _⟩ | ⟨_, _, ⟨i, u, _, hframe, rfl⟩ | ⟨e, rfl⟩⟩
    · cases hphase.symm.trans hidle
    · obtain ⟨_, _, _, _, _, _, _, _, rfl⟩ := hframe.engineOnly
      exact Bool.and_true s.ie
    · exact Bool.and_true s.ie
  case clear =>
    intro s w hw
    rw [statusWriteClearsOnes]
    exact State.irq_of_not_done (by simp only [hw, Bool.not_true, Bool.and_false])
  case accept =>
    intro s w hidle herr
    rw [show s.busWrite .w32 0x00C#32 w = s.offer w from s.busWrite_register .cmd w]
    rcases s.offer_cases w with ⟨hbusy, _⟩ | ⟨_, _, hs⟩
    · simp [hidle, herr] at hbusy
    · rw [hs]
      exact State.irq_of_not_done rfl
  case srst =>
    intro s v hv
    rw [show s.busWrite .w32 0x004#32 v = s.writeCtrl v from s.busWrite_register .ctrl v, State.writeCtrl, if_pos hv]
    exact softReset_irq s
  case mask =>
    intro s v hv
    rw [show s.busWrite .w32 0x004#32 v = s.writeCtrl v from s.busWrite_register .ctrl v]
    rcases s.writeCtrl_cases v with ⟨_, hs⟩ | ⟨_, hs⟩ <;> rw [hs]
    · exact softReset_irq s
    · rw [State.irq, hv, Bool.false_and]

end Sys2Proof.Machine
end

section
/-!
PROOFS. Legal and illegal host accesses (20_memory.md R62, R63) and the host's DMEM accesses (R64): an access is legal
exactly when it has a target, and what it does then.
-/

namespace Sys2Proof.Machine

open Sys2Proof.Statements

/-! ### An access is legal exactly when it has a target -/

theorem regAt_eq_some {o : Nat} {r : Reg} : regAt o = some r ↔ o = r.offset.toNat := by
  constructor
  · intro h
    unfold regAt at h
    split at h <;> cases h <;> rfl
  · rintro rfl
    cases r <;> rfl

/-- The offsets that hold a register are those of the statements' list (R48). -/
theorem regAt_isSome {o : Nat} : (regAt o).isSome ↔ o ∈ registerOffsets := by
  constructor
  · intro h
    obtain ⟨r, hr⟩ := Option.isSome_iff_exists.mp h
    obtain rfl := regAt_eq_some.mp hr
    cases r <;> decide
  · exact (by decide : ∀ o ∈ registerOffsets, (regAt o).isSome) o

/-- Every table offset has a target, and below the tables the registers' offsets alone. -/
theorem wordTarget_isSome {o : Nat} : (wordTarget o).isSome ↔ (o < 0x400 → o ∈ registerOffsets) := by
  unfold wordTarget
  split
  next h => simp [h, regAt_isSome]
  next h =>
    refine iff_of_true ?_ fun hlt => absurd hlt h
    split
    · rfl
    · split <;> rfl

theorem accessTarget_isSome {p : Params} {w : Width} {off : Word} :
    (accessTarget p w off).isSome ↔ LegalAccess p w off := by
  unfold accessTarget LegalAccess
  simp only
  split
  next hlow =>
    rw [or_iff_left (by omega)]
    split
    next h => simp [hlow, h, wordTarget_isSome]
    next h => exact iff_of_false Bool.false_ne_true fun ⟨_, hw, ha, _⟩ => h ⟨hw, ha⟩
  next hlow =>
    rw [or_iff_right fun h => hlow h.1]
    split
    next h => exact iff_of_true rfl h
    next h => exact iff_of_false Bool.false_ne_true h

theorem accessTarget_of_legal {p : Params} {w : Width} {off : Word} (h : LegalAccess p w off) :
    ∃ g, accessTarget p w off = some g :=
  Option.isSome_iff_exists.mp (accessTarget_isSome.mpr h)

theorem accessTarget_of_illegal {p : Params} {w : Width} {off : Word} (h : ¬ LegalAccess p w off) :
    accessTarget p w off = none :=
  Option.not_isSome_iff_eq_none.mp fun hsome => h (accessTarget_isSome.mp hsome)

/-- A register is reached by a word access at its own offset, and in no other way (R48, R62). -/
theorem accessTarget_eq_reg {p : Params} {w : Width} {off : Word} {r : Reg} (h : accessTarget p w off = some (.reg r)) :
    w = .w32 ∧ off = r.offset := by
  unfold accessTarget at h
  simp only at h
  split at h
  · split at h
    next hw =>
      refine ⟨hw.1, BitVec.eq_of_toNat_eq (regAt_eq_some.mp ?_)⟩
      unfold wordTarget at h
      split at h
      · simpa using h
      · split at h
        · cases h
        · split at h <;> cases h
    · cases h
  · split at h <;> cases h

/-- A legal access at a register's offset is a word access. -/
theorem legalAccess_offset {p : Params} {w : Width} {r : Reg} (h : LegalAccess p w r.offset) : w = .w32 := by
  have hlow : r.offset.toNat < 0x1000 := by cases r <;> decide
  rcases h with ⟨_, hw, _⟩ | ⟨hhigh, _⟩
  · exact hw
  · omega

/-! ### ACCERR -/

/-- Outside the BUSY window a legal read changes nothing (R68). -/
theorem State.busRead_idle {s : State} {w : Width} {off : Word} (hb : s.status.busy = false)
    (h : LegalAccess s.params w off) : (s.busRead w off).2 = s := by
  obtain ⟨g, hg⟩ := accessTarget_of_legal h
  rw [State.busRead, hg]
  cases g with
  | reg r => simp [State.readReg, hb]
  | xtab j => rfl
  | ytab j | coef j => simp [State.readEntry, hb]
  | dmem a => simp [State.readDmem, hb]

/-- In and out of the BUSY window a legal read changes at most the draw counter (R68, R256). -/
theorem State.busRead_legal {s : State} {w : Width} {off : Word} (h : LegalAccess s.params w off) :
    (s.busRead w off).2 = { s with draws := (s.busRead w off).2.draws } := by
  rcases s.busRead_state w off with ⟨_, hnone⟩ | ⟨d, hs⟩
  · obtain ⟨g, hg⟩ := accessTarget_of_legal h
    cases hnone.symm.trans hg
  · rw [hs]

theorem State.unlessBusy_accerr {s t : State} (h : t.status = s.status) :
    (s.unlessBusy t).status.accerr = s.status.accerr := by
  rcases s.unlessBusy_cases t with ⟨_, hu⟩ | ⟨_, hu⟩
  · rw [hu]
    rfl
  · rw [hu, h]

theorem State.offer_accerr (s : State) (c : Word) : (s.offer c).status.accerr = s.status.accerr := by
  rcases s.offer_cases c with ⟨_, hs⟩ | ⟨_, _, hs⟩ <;> exact congrArg (·.status.accerr) hs

theorem softReset_accerr (s : State) : s.softReset.status.accerr = false := by
  rcases s.softReset_cases with ⟨_, hs⟩ | ⟨_, _, hs⟩ <;> exact congrArg (·.status.accerr) hs

theorem State.writeReg_accerr (s : State) {r : Reg} (v : Word) (hctrl : r ≠ .ctrl) (hstatus : r ≠ .status) :
    (s.writeReg r v).status.accerr = s.status.accerr := by
  cases r with
  | ctrl => exact absurd rfl hctrl
  | status => exact absurd rfl hstatus
  | cmd => exact s.offer_accerr v
  | arg0 | arg1 | arg2 | arg3 | cfg | prngLo | prngHi => exact State.unlessBusy_accerr rfl
  | id | res0 | repairs | errinfo | param | dmemsz => rfl

/-- A legal write to anything but CTRL and STATUS keeps ACCERR (R63). -/
theorem State.busWrite_accerr {s : State} {w : Width} {off : Word} (v : Word) (h : LegalAccess s.params w off)
    (hctrl : off ≠ Reg.ctrl.offset) (hstatus : off ≠ Reg.status.offset) :
    (s.busWrite w off v).status.accerr = s.status.accerr := by
  obtain ⟨g, hg⟩ := accessTarget_of_legal h
  rw [State.busWrite, hg]
  cases g with
  | reg r =>
    obtain ⟨_, hoff⟩ := accessTarget_eq_reg hg
    exact s.writeReg_accerr v (fun hr => hctrl (hr ▸ hoff)) fun hr => hstatus (hr ▸ hoff)
  | xtab j | ytab j | coef j => exact State.unlessBusy_accerr rfl
  | dmem a => exact State.unlessBusy_accerr (by rw [State.memWrite_eq])

/-- Settles O47: an illegal access has no target; a legal one is a read, a CTRL write, a STATUS write or any other write. -/
theorem illegalAccessOnlySetsAccerr : Obligations.IllegalAccessOnlySetsAccerr := by
  intro s w off v
  refine ⟨fun hillegal => ?illegal, fun hlegal => ⟨fun hb => State.busRead_idle hb hlegal, State.busRead_legal hlegal,
    State.busWrite_accerr v hlegal, ?ie, ?srst, ?status⟩⟩
  case illegal =>
    rw [State.busRead, State.busWrite, accessTarget_of_illegal hillegal]
    exact ⟨rfl, rfl⟩
  case ie =>
    rintro rfl hv
    rw [legalAccess_offset (r := .ctrl) hlegal]
    exact s.busWrite_ctrl_ie hv
  case srst =>
    rintro rfl hv
    rw [legalAccess_offset (r := .ctrl) hlegal, show s.busWrite .w32 0x004#32 v = s.writeCtrl v from
      s.busWrite_register .ctrl v, State.writeCtrl, if_pos hv]
    exact softReset_accerr s
  case status =>
    rintro rfl
    rw [legalAccess_offset (r := .status) hlegal, statusWriteClearsOnes]

/-! ### DMEM -/

/-- An aligned access that ends inside DMEM reaches its byte address (R60, R62). -/
theorem accessTarget_dmem {p : Params} {w : Width} {a : Nat} (ha : a % w.bytes = 0) (hin : a + w.bytes ≤ p.dmemSize)
    (hoff : 0x100000 + a < 2 ^ 32) : accessTarget p w (BitVec.ofNat 32 (0x100000 + a)) = some (.dmem a) := by
  have hmod : (BitVec.ofNat 32 (0x100000 + a)).toNat = 0x100000 + a := by
    rw [BitVec.toNat_ofNat, Nat.mod_eq_of_lt hoff]
  have halign : (0x100000 + a) % w.bytes = 0 := by
    cases w <;> simp only [Width.bytes] at ha ⊢ <;> omega
  simp only [accessTarget, hmod, Config.dmemOff, Nat.add_sub_cancel_left]
  rw [if_neg (by omega), if_pos ⟨Nat.le_add_right _ a, halign, hin⟩]

/-- MemRead as the sum of its bytes at their weights (R64). -/
theorem State.memRead_eq_sum (s : State) (a n : Nat) :
    s.memRead a n = ∑ i ∈ Finset.range n, (s.readByte (a + i)).toNat * 2 ^ (8 * i) := rfl

/-- MemRead of n bytes is an n-byte number. -/
theorem State.memRead_lt (s : State) (a n : Nat) : s.memRead a n < 2 ^ (8 * n) := by
  rw [State.memRead_eq_sum]
  induction n with
  | zero => exact Nat.one_pos
  | succ n ih =>
    have hbyte : (s.readByte (a + n)).toNat ≤ 2 ^ 8 - 1 := Nat.le_pred_of_lt (s.readByte (a + n)).isLt
    have htop : (s.readByte (a + n)).toNat * 2 ^ (8 * n) ≤ (2 ^ 8 - 1) * 2 ^ (8 * n) := Nat.mul_le_mul_right _ hbyte
    rw [Finset.sum_range_succ, Nat.mul_succ, Nat.pow_add]
    omega

/-- An access has at most the 32 bits of a word. -/
theorem State.memRead_width_lt (s : State) (a : Nat) (w : Width) : s.memRead a w.bytes < 2 ^ 32 :=
  Nat.lt_of_lt_of_le (s.memRead_lt a w.bytes) (Nat.pow_le_pow_right (by decide) (by cases w <;> decide))

/-- Byte i of what MemWrite wrote (R64). -/
theorem State.toNat_readByte_memWrite (s : State) {a n i : Nat} (v : Word) (hi : i < n) :
    ((s.memWrite a n v).readByte (a + i)).toNat = v.toNat / 2 ^ (8 * i) % 256 := by
  rw [State.readByte_memWrite, if_pos (by omega), Nat.add_sub_cancel_left]
  exact toNat_extractLsb'_eq v (8 * i) 8

/-- Settles O48: the access is a MemWrite or a MemRead at a. -/
theorem dmemAccessIsLittleEndian : Obligations.DmemAccessIsLittleEndian := by
  intro s w a v ⟨_, ⟨_, _, hsize⟩, _⟩ hb ha hin
  have hbytes : 0 < w.bytes := by cases w <;> decide
  have htarget := accessTarget_dmem ha hin (by omega)
  have hwrite : s.busWrite w (BitVec.ofNat 32 (0x100000 + a)) v = s.memWrite a w.bytes v := by
    rw [State.busWrite, htarget]
    exact State.unlessBusy_of_idle _ hb
  have hread : s.busRead w (BitVec.ofNat 32 (0x100000 + a)) = (BitVec.ofNat 32 (s.memRead a w.bytes), s) := by
    rw [State.busRead, htarget]
    simp [State.readDmem, hb]
  refine ⟨⟨_, hwrite, s.memWrite_eq a w.bytes v, fun i hi => s.toNat_readByte_memWrite v hi, fun c hc => ?frame⟩,
    _, hread, ?value⟩
  case frame =>
    rw [State.readByte_memWrite, if_neg (by omega)]
  case value =>
    rw [BitVec.toNat_ofNat, Nat.mod_eq_of_lt (s.memRead_width_lt a w), State.memRead_eq_sum]

end Sys2Proof.Machine
end

section
/-!
PROOFS. The command word (30_encoding.md R80 to R83): the fields of an encoded command, what the decoder accepts and what it
rejects, and the completion step of a word that is no command (60_exceptions.md R222).
-/

namespace Sys2Proof.Machine

open Sys2Proof.Statements

/-! ### The fields of a command word -/

@[simp] theorem opField_encode (i : Instr) : opField (encode i) = opcode i := BitVec.extractLsb'_append_eq_right

@[simp] theorem rsvField_encode (i : Instr) : rsvField (encode i) = 0#24 := BitVec.extractLsb'_append_eq_left

/-- A word is its two fields, RSV above OP (R80). -/
theorem rsvField_append_opField (c : Word) : rsvField c ++ opField c = c := BitVec.extractLsb'_append_extractLsb'

/-- A word is that of a command when RSV is 0 and OP the command's opcode. -/
theorem encode_eq_iff {i : Instr} {c : Word} : encode i = c ↔ rsvField c = 0#24 ∧ opcode i = opField c := by
  constructor
  · rintro rfl
    exact ⟨rsvField_encode i, (opField_encode i).symm⟩
  · intro ⟨hrsv, hop⟩
    rw [encode, hop, ← hrsv, rsvField_append_opField]

/-! ### The decoder -/

/-- OPMAP is the inverse of the opcodes (R82). -/
theorem opMap_eq_some_iff {op : Byte} {i : Instr} : opMap op = some i ↔ opcode i = op := by
  constructor
  · intro h
    unfold opMap at h
    split at h <;> cases h <;> exact BitVec.eq_of_toNat_eq (Eq.symm ‹_›)
  · rintro rfl
    cases i <;> rfl

theorem decode_of_reserved {c : Word} (h : rsvField c ≠ 0#24) : decode c = .error .reservedBits := if_pos h

theorem decode_of_assigned {c : Word} {i : Instr} (hrsv : rsvField c = 0#24) (hop : opMap (opField c) = some i) :
    decode c = .ok i := by
  rw [decode, if_neg (not_not_intro hrsv), hop]

theorem decode_of_unassigned {c : Word} (hrsv : rsvField c = 0#24) (hop : opMap (opField c) = none) :
    decode c = .error .unassignedOpcode := by
  rw [decode, if_neg (not_not_intro hrsv), hop]

theorem decode_eq_ok_iff {c : Word} {i : Instr} : decode c = .ok i ↔ rsvField c = 0#24 ∧ opMap (opField c) = some i := by
  refine ⟨fun h => ?_, fun ⟨hrsv, hop⟩ => decode_of_assigned hrsv hop⟩
  by_cases hrsv : rsvField c = 0#24
  · cases hop : opMap (opField c) with
    | none => cases (decode_of_unassigned hrsv hop).symm.trans h
    | some j => exact ⟨hrsv, congrArg some (Except.ok.inj ((decode_of_assigned hrsv hop).symm.trans h))⟩
  · cases (decode_of_reserved hrsv).symm.trans h

/-- The decoder answers a command exactly on that command's word. -/
theorem decode_eq_ok_iff_encode {c : Word} {i : Instr} : decode c = .ok i ↔ encode i = c := by
  rw [decode_eq_ok_iff, opMap_eq_some_iff, encode_eq_iff]

@[simp] theorem decode_encode (i : Instr) : decode (encode i) = .ok i := decode_eq_ok_iff_encode.mpr rfl

/-- Settles O1: both directions are that the decoder answers a command exactly on its word. -/
theorem decodeAndEncodeAgree : Obligations.DecodeAndEncodeAgree :=
  ⟨fun i _ => decode_encode i, fun _ _ => decode_eq_ok_iff_encode.mp⟩

/-- The rows of the statements' list are the commands with their words (R82). -/
theorem mem_opmap_iff {c : Word} {i : Instr} : (c, i) ∈ opmap ↔ encode i = c := by
  have row_word : ∀ row ∈ opmap, encode row.2 = row.1 := by decide
  constructor
  · exact row_word (c, i)
  · rintro rfl
    cases i <;> decide

/-- Settles O2: a row of the list is a command with its word, where the decoder answers it. -/
theorem decoderAcceptsExactlyTheListedWords : Obligations.DecoderAcceptsExactlyTheListedWords :=
  fun _ _ => decode_eq_ok_iff_encode.trans mem_opmap_iff.symm

/-- Settles O4: the words of six commands, an opcode that is unassigned and a word with a reserved bit. -/
theorem writtenOutWordsDecode : Obligations.WrittenOutWordsDecode :=
  ⟨decode_encode .nop, decode_encode .rmask, decode_encode .ginv, decode_encode .psharebuf, decode_encode .vrecon,
    decode_encode .shide, decode_of_unassigned rfl rfl, decode_of_reserved (by decide)⟩

/-! ### The engine's turn on a pending word -/

theorem engineStep_of_busy {s : State} {c : Word} (h : s.phase = .busy c) : engineStep s = performWord c s := by
  rw [engineStep, h]

/-- After the schedule's end the engine acts while a word is pending (notes/assumptions/7.md). -/
theorem step_of_pending {s : State} {c : Word} (hphase : s.phase = .busy c) (h : s.schedule = []) :
    step s = performWord c s := by
  rw [← engineStep_of_busy hphase]
  simp [step, h, hphase]

theorem step_of_engine_turn {s : State} {c : Word} {rest : List Turn} (hphase : s.phase = .busy c)
    (h : s.schedule = .engine :: rest) : step s = performWord c { s with schedule := rest } := by
  rw [← engineStep_of_busy (s := { s with schedule := rest }) hphase]
  simp [step, h]

/-- A word off the list is no command, whatever its fields (R81, R82). -/
theorem decode_of_unlisted {c : Word} (h : ∀ i, (c, i) ∉ opmap) : ∃ e, decode c = .error e := by
  cases hdecode : decode c with
  | error e => exact ⟨e, rfl⟩
  | ok i => exact absurd ((decoderAcceptsExactlyTheListedWords c i).mp hdecode) (h i)

/-- The completion step of a word that is no command: the error report with the word as its locator (R83, R222). -/
theorem performWord_of_unlisted {c : Word} (h : ∀ i, (c, i) ∉ opmap) (s : State) :
    performWord c s = .next (reported s .illegalCmd c) := by
  obtain ⟨e, hdecode⟩ := decode_of_unlisted h
  rw [performWord, hdecode]
  rfl

/-- Settles O3: on either form of the engine's turn the step is the completion step of the pending word. -/
theorem everyOtherWordEndsWithIllegalCmd : Obligations.EveryOtherWordEndsWithIllegalCmd :=
  fun _ _ hunlisted hphase =>
    ⟨fun hend => (step_of_pending hphase hend).trans (performWord_of_unlisted hunlisted _),
      fun _ hturn => (step_of_engine_turn hphase hturn).trans (performWord_of_unlisted hunlisted _)⟩

end Sys2Proof.Machine
end

section
/-!
PROOFS. The host's turn (30_encoding.md R87): whose turn a step is, the value of a script variable, and what each statement of
the host script does.
-/

namespace Sys2Proof.Machine

/-! ### The host's turn -/

/-- After the schedule's end the host acts while the engine is idle (notes/assumptions/7.md). -/
theorem step_of_idle {s : State} (hphase : s.phase = .idle) (h : s.schedule = []) : step s = hostStep s := by
  simp [step, h, hphase]

theorem step_of_host_turn {s : State} {rest : List Turn} (h : s.schedule = .host :: rest) :
    step s = hostStep { s with schedule := rest } := by
  simp [step, h]

theorem hostStep_of_statement {s : State} {st : Stmt} (h : s.hostStatement = some st) : hostStep s = performStmt st s := by
  rw [hostStep, h]

theorem hostStep_of_end {s : State} (h : s.hostStatement = none) : hostStep s = .next s := by
  rw [hostStep, h]

/-! ### Script variables -/

@[simp] theorem lookupVar_cons_self (vars : List (Nat × Word)) (x : Nat) (v : Word) :
    lookupVar ((x, v) :: vars) x = some v := if_pos rfl

theorem lookupVar_cons_of_ne (vars : List (Nat × Word)) {x y : Nat} (v : Word) (h : y ≠ x) :
    lookupVar ((x, v) :: vars) y = lookupVar vars y := if_neg h

theorem State.scriptValue_num (s : State) (n : Word) : s.scriptValue (.num n) = .ok n := rfl

theorem State.scriptValue_of_read {s : State} {x : Nat} {n : Word} (h : lookupVar s.host.vars x = some n) :
    s.scriptValue (.var x) = .ok n := by
  simp only [State.scriptValue, h]

theorem State.scriptValue_of_unread {s : State} {x : Nat} (h : lookupVar s.host.vars x = none) :
    s.scriptValue (.var x) = .error (.unboundVariable x) := by
  simp only [State.scriptValue, h]

/-! ### Bus statements -/

theorem State.busWrite_host (s : State) (w : Width) (off v : Word) : (s.busWrite w off v).host = s.host :=
  (s.busWrite_keeps w off v).1

theorem State.busRead_host (s : State) (w : Width) (off : Word) : (s.busRead w off).2.host = s.host := by
  rcases s.busRead_state w off with ⟨hs, _⟩ | ⟨d, hs⟩ <;> simp [hs]

/-- W, WH and WB: the bus write of the statement's value, then on to the next statement (R87). -/
theorem performStmt_write {s : State} {v : Value} {n : Word} (h : s.scriptValue v = .ok n) (w : Width) (off : Word) :
    performStmt (.write w off v) s =
      .next { s.busWrite w off n with host := { s.host with position := s.host.position + 1 } } := by
  simp only [performStmt, h, State.advance, State.busWrite_host]

theorem performStmt_write_refused {s : State} {v : Value} {r : Refusal} (h : s.scriptValue v = .error r) (w : Width)
    (off : Word) : performStmt (.write w off v) s = .refused r := by
  simp only [performStmt, h]

/-- R, RH and RB: the bus read, its value the latest of the variable, then on to the next statement (R87). -/
theorem performStmt_read (s : State) (w : Width) (off : Word) (x : Nat) :
    performStmt (.read w off x) s = .next { (s.busRead w off).2 with
      host := { s.host with
        position := s.host.position + 1, vars := (x, (s.busRead w off).1) :: s.host.vars } } := by
  simp only [performStmt, State.advance, State.bindVar, State.busRead_host]

/-- Settles O6: the turn is the host's, and each bus statement is its access followed by the advance. -/
theorem stepRunsTheHostStatement : Obligations.StepRunsTheHostStatement := by
  refine ⟨fun s => ⟨fun hend hphase => ?afterEnd, fun rest hturn => ?hostTurn⟩, fun s w off => ?statements⟩
  case afterEnd =>
    rw [step_of_idle hphase hend]
    exact ⟨fun _ => hostStep_of_statement, hostStep_of_end⟩
  case hostTurn =>
    rw [step_of_host_turn hturn]
    exact ⟨fun _ => hostStep_of_statement (s := { s with schedule := rest }),
      hostStep_of_end (s := { s with schedule := rest })⟩
  case statements =>
    exact ⟨fun n => performStmt_write (s.scriptValue_num n) w off,
      fun _ _ hread => performStmt_write (State.scriptValue_of_read hread) w off,
      fun _ hunread => performStmt_write_refused (State.scriptValue_of_unread hunread) w off,
      fun x => ⟨_, performStmt_read s w off x, lookupVar_cons_self _ x _, fun _ hne => lookupVar_cons_of_ne _ _ hne⟩,
      fun _ => rfl⟩

/-! ### Control flow -/

theorem State.goTo_label {s : State} {l at_ : Nat} (h : findLabel s.host.script l = some at_) :
    s.goTo l = .next { s with host := { s.host with position := at_ } } := by
  rw [State.goTo, h]

theorem State.goTo_missing {s : State} {l : Nat} (h : findLabel s.host.script l = none) :
    s.goTo l = .refused (.missingLabel l) := by
  rw [State.goTo, h]

section
variable {s : State} {x : Nat}

/-- BIT on a variable that was read: to the label when the bit is 1, else on (R87). -/
theorem performStmt_bit {n : Word} (h : lookupVar s.host.vars x = some n) (b l : Nat) :
    performStmt (.bit x b l) s = if n.getLsbD b then s.goTo l else .next s.advance := by
  simp only [performStmt, State.scriptValue_of_read h]

theorem performStmt_bit_unread (h : lookupVar s.host.vars x = none) (b l : Nat) :
    performStmt (.bit x b l) s = .refused (.unboundVariable x) := by
  simp only [performStmt, State.scriptValue_of_unread h]

/-- EXPECT on a variable that was read, with a value: on when they are equal, else the fault (R87). -/
theorem performStmt_expect {n v : Word} {val : Value} (h : lookupVar s.host.vars x = some n)
    (hval : s.scriptValue val = .ok v) :
    performStmt (.expect x val) s = if n = v then .next s.advance else .fault .expectFailed := by
  simp only [performStmt, State.scriptValue_of_read h, hval]

theorem performStmt_expect_value_refused {n : Word} {val : Value} {r : Refusal} (h : lookupVar s.host.vars x = some n)
    (hval : s.scriptValue val = .error r) : performStmt (.expect x val) s = .refused r := by
  simp only [performStmt, State.scriptValue_of_read h, hval]

theorem performStmt_expect_unread (h : lookupVar s.host.vars x = none) (val : Value) :
    performStmt (.expect x val) s = .refused (.unboundVariable x) := by
  simp only [performStmt, State.scriptValue_of_unread h]

end

/-- Settles O7: one clause per statement and per outcome of its variable, its bit and its label. -/
theorem hostControlFlow : Obligations.HostControlFlow := by
  intro s
  refine ⟨fun x b l n hx => ⟨fun at_ hbit hlabel => ?bitGoes, fun hbit hlabel => ?bitMissing, fun hbit => ?bitOn⟩,
    fun l at_ => State.goTo_label, fun l => State.goTo_missing, fun x n hx val v hval => ?expect,
    fun x n y hx hy => performStmt_expect_value_refused hx (State.scriptValue_of_unread hy),
    fun x b l val hx => ⟨performStmt_bit_unread hx b l, performStmt_expect_unread hx val⟩, rfl⟩
  case bitGoes => rw [performStmt_bit hx, if_pos hbit, State.goTo_label hlabel]
  case bitMissing => rw [performStmt_bit hx, if_pos hbit, State.goTo_missing hlabel]
  case bitOn => rw [performStmt_bit hx, if_neg (Bool.eq_false_iff.mp hbit), State.advance]
  case expect =>
    have hvalue : s.scriptValue val = .ok v := by
      rcases hval with rfl | ⟨y, rfl, hy⟩
      · exact s.scriptValue_num v
      · exact State.scriptValue_of_read hy
    exact ⟨fun heq => by rw [performStmt_expect hx hvalue, if_pos heq, State.advance],
      fun hne => by rw [performStmt_expect hx hvalue, if_neg hne]⟩

end Sys2Proof.Machine
end

section
/-!
PROOFS. The generator and the mask (40_prng_mask.md R100 to R108): the model's seed, step and byte are those of the
statements' formulas, and RGEN and RMASK are one loop over the mask stream, which differs in how a mask byte meets the byte before.
-/

namespace Sys2Proof.Machine

open Sys2Proof.Statements

/-! ### The generator in numbers -/

theorem toNat_prngMultiplier : Config.prngMultiplier.toNat = 25214903917 := rfl

/-- A step wraps modulo 2^48 (R101). -/
theorem prngNext_eq_nextState (x : PrngState) : prngNext x = nextState x := by
  refine BitVec.eq_of_toNat_eq ?_
  rw [prngNext, nextState, BitVec.toNat_add, BitVec.toNat_mul, toNat_prngMultiplier, BitVec.toNat_ofNat,
    BitVec.toNat_ofNat, Nat.mod_mod, Nat.mod_add_mod]

/-- R101's form of the byte is R102's. -/
theorem byte_forms_agree (n : Nat) : 256 * (n / 2 ^ 17) / 2 ^ 31 = n / 2 ^ 40 := by
  omega

theorem toNat_prngByte (x : PrngState) : (prngByte x).toNat = 256 * (x.toNat / 2 ^ 17) / 2 ^ 31 := by
  have hx := x.isLt
  rw [prngByte, BitVec.toNat_ofNat, Nat.shiftRight_eq_div_pow, Nat.shiftRight_eq_div_pow]
  omega

theorem prngByte_eq_topByte (x : PrngState) : prngByte x = x.extractLsb' 40 8 := by
  have hx := x.isLt
  refine BitVec.eq_of_toNat_eq ?_
  rw [toNat_prngByte, byte_forms_agree, toNat_extractLsb'_eq]
  omega

/-- Settles O16: both forms of the byte are bits 47:40 of the state. -/
theorem stepByteIsTheTopByte : Obligations.StepByteIsTheTopByte :=
  fun x => ⟨prngByte_eq_topByte x, byte_forms_agree x.toNat⟩

/-! ### Completion and error entry of a command -/

theorem takeError_eq_reported (s : State) (kind : ErrorKind) (info : Word) :
    s.takeError ⟨kind, info⟩ = reported s kind info := by
  cases kind <;> rfl

section
variable {i : Instr} {s t : State}

/-- A command whose pseudocode raises an error ends with it. -/
theorem endsWith_of_error {kind : ErrorKind} {info : Word} (h : performInstr i s = .error ⟨kind, info⟩) :
    EndsWith i s kind info := by
  rw [EndsWith, exec_eq_finish, h, finish_error, takeError_eq_reported]

/-- A command whose pseudocode raises no error completes with what it left. -/
theorem completesAs_of_ok (h : performInstr i s = .ok t) : CompletesAs i s t := by
  rw [CompletesAs, exec_eq_finish, h, finish_ok, State.complete_eq]

/-- The state after a completion. -/
theorem exec_of_completesAs (h : CompletesAs i s t) : exec i s = .next t.complete := h

end

/-! ### RNEXT -/

theorem State.setRes0_setPrng (s : State) (x : PrngState) (v : Nat) :
    (s.setPrng x).setRes0 v = { s with prng := x, res0 := BitVec.ofNat 32 v } := rfl

/-- RNEXT before its completion, in numbers (R104). -/
theorem performRnext_eq_nextState (s : State) : performInstr .rnext s = .ok
    { s with
      prng := nextState s.prng
      res0 := BitVec.ofNat 32 (256 * ((nextState s.prng).toNat / 2 ^ 17) / 2 ^ 31) } := by
  rw [performInstr, performRnext_eq, State.prngStep, State.setPrng_prng, toNat_prngByte, prngNext_eq_nextState,
    State.setRes0_setPrng]

/-- Settles O15: the step and its byte, in numbers. -/
theorem rnextStepsTheGenerator : Obligations.RnextStepsTheGenerator :=
  ⟨decode_encode .rnext, fun s => completesAs_of_ok (performRnext_eq_nextState s)⟩

/-! ### The seed and RSEED -/

/-- The seed check in numbers (R85). -/
theorem seedCheck_iff (arg : Word) : arg.extractLsb' 16 16 = 0#16 ↔ arg.toNat < 0x10000 := by
  have harg := arg.isLt
  rw [← BitVec.toNat_inj, toNat_extractLsb'_eq, BitVec.toNat_ofNat]
  omega

theorem seedOperand_of_lt {arg off : Word} (h : arg.toNat < 0x10000) :
    seedOperand arg off = .ok (arg.extractLsb' 0 16) :=
  seedOperand_of_zero ((seedCheck_iff arg).mpr h)

theorem seedOperand_of_ge {arg off : Word} (h : 0x10000 ≤ arg.toNat) :
    seedOperand arg off = .error ⟨.invalidArgument, off⟩ :=
  seedOperand_of_nonzero ((seedCheck_iff arg).not.mpr (Nat.not_lt.mpr h))

/-- The widened seed in numbers (R100). -/
theorem widenSeed_eq_ofNat (ext : SeedExt) (seed : Seed) : widenSeed ext seed =
    BitVec.ofNat 48 (if ext = .zero ∨ seed.toNat < 0x8000 then seed.toNat else seed.toNat + (2 ^ 48 - 2 ^ 16)) := by
  have hseed := seed.isLt
  refine BitVec.eq_of_toNat_eq ?_
  cases ext with
  | zero => simp [widenSeed]
  | sign =>
    rw [widenSeed, BitVec.toNat_signExtend, BitVec.toNat_setWidth, BitVec.msb_eq_decide, BitVec.toNat_ofNat]
    simp only [reduceCtorEq, false_or, decide_eq_true_eq]
    by_cases hpos : seed.toNat < 0x8000
    · rw [if_neg (by omega), if_pos hpos]
      omega
    · rw [if_pos (by omega), if_neg hpos]
      omega

/-- The state a legal seed operand gives (R100). -/
theorem seedState_eq_seedFn (p : Params) {arg : Word} (h : arg.toNat < 0x10000) :
    seedState p.seedExt (arg.extractLsb' 0 16) = seedFn p arg.toNat := by
  have hseed : (arg.extractLsb' 0 16).toNat = arg.toNat := by
    rw [toNat_extractLsb'_eq]
    omega
  rw [seedState, widenSeed_eq_ofNat, hseed, seedFn, BitVec.ofNat_xor]

/-- Settles O14: the seed check, and the seeded state in numbers. -/
theorem rseedLoadsTheSeedState : Obligations.RseedLoadsTheSeedState := by
  refine ⟨decode_encode .rseed, fun s => ⟨fun hbad => endsWith_of_error ?bad, fun hgood => completesAs_of_ok ?good⟩⟩
  case bad =>
    rw [performInstr, performRseed, seedOperand_of_ge hbad]
    rfl
  case good =>
    rw [performInstr, performRseed, seedOperand_of_lt hgood, ← seedState_eq_seedFn _ hgood]
    rfl

/-! ### The mask stream -/

/-- The mask depends on the build through SEED_EXT alone (R108). -/
theorem maskState_congr {p q : Params} (h : q.seedExt = p.seedExt) (seed n : Nat) :
    maskState q seed n = maskState p seed n := by
  induction n with
  | zero => simp only [maskState, seedFn, h]
  | succ n ih => rw [maskState, maskState, ih]

theorem maskByte_congr {p q : Params} (h : q.seedExt = p.seedExt) (seed i : Nat) :
    maskByte q seed i = maskByte p seed i := by
  rw [maskByte, maskByte, maskState_congr h]

/-- One pass of RGEN or RMASK: a step of the generator, whose byte meets DMEM[d + i] as mix says (R105, R106). -/
def streamPass (mix : Byte → Byte → Byte) (d i : Nat) (s : State) : State :=
  s.prngStep.writeByte (d + i) (mix (s.readByte (d + i)) (prngByte s.prngStep.prng))

/-- RGEN or RMASK before its completion, as mix says (R105, R106). -/
def performStream (mix : Byte → Byte → Byte) (s : State) : Except EngineError State := do
  let seed ← seedOperand s.arg1 Offset.arg1
  rangeOperand s s.arg0.toNat s.arg2.toNat Offset.arg0
  pure (forUp s.arg2.toNat (streamPass mix s.arg0.toNat) (s.reseed seed))

/-- RGEN's byte replaces the one before. -/
theorem performRgen_eq_performStream (s : State) : performInstr .rgen s = performStream (fun _ m => m) s := rfl

/-- RMASK's byte is XORed with the one before. -/
theorem performRmask_eq_performStream (s : State) : performInstr .rmask s = performStream (fun c m => c ^^^ m) s := rfl

/-- A pass in terms of S before it. -/
theorem streamPass_eq (mix : Byte → Byte → Byte) (d i : Nat) (s : State) :
    streamPass mix d i s = (s.setPrng (prngNext s.prng)).writeByte (d + i)
      (mix (s.readByte (d + i)) (prngByte (prngNext s.prng))) := by
  rw [streamPass, State.prngStep, State.setPrng_prng]

theorem State.readByte_setPrng (s : State) (x : PrngState) (b : Nat) : (s.setPrng x).readByte b = s.readByte b := rfl

/-- S and one byte set once more, where S and DMEM alone have been. -/
theorem State.setPrng_writeByte_rest {s t : State} {x : PrngState} (h : t = { s with prng := x, dmem := t.dmem })
    (y : PrngState) (b : Nat) (v : Byte) : (t.setPrng y).writeByte b v =
      { s with prng := y, dmem := ((t.setPrng y).writeByte b v).dmem } := by
  obtain ⟨m, rfl⟩ : ∃ m, t = { s with prng := x, dmem := m } := ⟨_, h⟩
  rfl

/-- m_i is the byte of the step from S_i (R102). -/
theorem prngByte_maskState (p : Params) (seed i : Nat) :
    prngByte (prngNext (maskState p seed i)) = maskByte p seed i := by
  rw [maskByte, maskState, prngByte_eq_topByte, prngNext_eq_nextState]

/-- What the mask stream of a seed leaves: S after its last byte, the bytes of [a, a+len) mixed, and the rest as it was. -/
structure Streamed (mix : Byte → Byte → Byte) (seed a len : Nat) (s t : State) : Prop where
  rest : t = { s with prng := maskState s.params seed len, dmem := t.dmem }
  inside : ∀ i, i < len → t.readByte (a + i) = mix (s.readByte (a + i)) (maskByte s.params seed i)
  outside : ∀ b, (b < a ∨ a + len ≤ b) → t.readByte b = s.readByte b

section
variable {mix : Byte → Byte → Byte} {seed a len : Nat} {s t : State}

theorem Streamed.prng (h : Streamed mix seed a len s t) : t.prng = maskState s.params seed len :=
  congrArg State.prng h.rest

/-- Before the first pass S is the seeded state. -/
theorem Streamed.init (mix : Byte → Byte → Byte) (seed a : Nat) (s : State) :
    Streamed mix seed a 0 s (s.setPrng (seedFn s.params seed)) :=
  ⟨rfl, fun _ hi => absurd hi (Nat.not_lt_zero _), fun _ _ => rfl⟩

/-- A pass reads the one byte it writes. -/
theorem readByte_streamPass (mix : Byte → Byte → Byte) (d i : Nat) (s : State) (b : Nat) :
    (streamPass mix d i s).readByte b =
      if b = d + i then mix (s.readByte (d + i)) (prngByte (prngNext s.prng)) else s.readByte b := by
  rw [streamPass_eq, State.readByte_writeByte, State.readByte_setPrng]

/-- The byte a pass writes is one that no earlier pass has written. -/
theorem Streamed.pass (h : Streamed mix seed a len s t) : Streamed mix seed a (len + 1) s (streamPass mix a len t) := by
  have hprng := h.prng
  obtain ⟨hrest, hinside, houtside⟩ := h
  refine ⟨?_, fun i hi => ?_, fun b hb => ?_⟩
  · rw [streamPass_eq, hprng, maskState, ← prngNext_eq_nextState]
    exact State.setPrng_writeByte_rest hrest _ _ _
  · rcases Nat.lt_succ_iff_lt_or_eq.mp hi with hlt | rfl
    · rw [readByte_streamPass, if_neg (by omega), hinside i hlt]
    · rw [readByte_streamPass, if_pos rfl, hprng, prngByte_maskState, houtside (a + i) (.inr (Nat.le_refl _))]
  · rw [readByte_streamPass, if_neg (by omega), houtside b (by omega)]

/-- The loop of RGEN and RMASK, one pass per mask byte. -/
theorem Streamed.loop (mix : Byte → Byte → Byte) (seed a len : Nat) (s : State) :
    Streamed mix seed a len s (forUp len (streamPass mix a) (s.setPrng (seedFn s.params seed))) :=
  forUp_induct (fun m t => Streamed mix seed a m s t) (.init mix seed a s) fun _ _ _ h => h.pass

theorem performStream_of_bad_seed (h : 0x10000 ≤ s.arg1.toNat) :
    performStream mix s = .error ⟨.invalidArgument, Offset.arg1⟩ := by
  rw [performStream, seedOperand_of_ge h, Except.bind_of_error]

theorem performStream_of_outside (hseed : s.arg1.toNat < 0x10000) (h : ¬ InDmem s s.arg0.toNat s.arg2.toNat) :
    performStream mix s = .error ⟨.addressError, Offset.arg0⟩ := by
  have hrange : s.inRange s.arg0.toNat s.arg2.toNat = false :=
    Bool.eq_false_iff.mpr fun hin => h (State.inRange_iff.mp hin)
  rw [performStream, seedOperand_of_lt hseed, Except.bind_of_ok,
    rangeOperand_of_outside hrange, Except.bind_of_error]

theorem performStream_of_legal (hseed : s.arg1.toNat < 0x10000) (h : InDmem s s.arg0.toNat s.arg2.toNat) :
    ∃ t, performStream mix s = .ok t ∧ Streamed mix s.arg1.toNat s.arg0.toNat s.arg2.toNat s t := by
  refine ⟨_, ?_, .loop mix s.arg1.toNat s.arg0.toNat s.arg2.toNat s⟩
  rw [performStream, seedOperand_of_lt hseed, Except.bind_of_ok,
    rangeOperand_of_inRange (State.inRange_iff.mpr h), Except.bind_of_ok, State.reseed, seedState_eq_seedFn _ hseed]
  rfl

/-- The operands of a second such command on the same operands. -/
theorem Streamed.operands (h : Streamed mix seed a len s t) :
    t.params = s.params ∧ t.arg0 = s.arg0 ∧ t.arg1 = s.arg1 ∧ t.arg2 = s.arg2 := by
  rw [h.rest]
  exact ⟨rfl, rfl, rfl, rfl⟩

end

/-! ### RGEN and RMASK -/

section
variable {i : Instr} {mix : Byte → Byte → Byte} {s : State}

/-- A command that performs the stream ends with INVALID_ARGUMENT on a seed of more than 16 bits. -/
theorem stream_endsWith_of_bad_seed (hi : ∀ s, performInstr i s = performStream mix s) (h : 0x10000 ≤ s.arg1.toNat) :
    EndsWith i s .invalidArgument Offset.arg1 :=
  endsWith_of_error ((hi s).trans (performStream_of_bad_seed h))

/-- A command that performs the stream ends with ADDRESS_ERROR on a legal seed and a range that leaves DMEM. -/
theorem stream_endsWith_of_outside (hi : ∀ s, performInstr i s = performStream mix s) (hseed : s.arg1.toNat < 0x10000)
    (h : ¬ InDmem s s.arg0.toNat s.arg2.toNat) : EndsWith i s .addressError Offset.arg0 :=
  endsWith_of_error ((hi s).trans (performStream_of_outside hseed h))

/-- A command that performs the stream completes with it on a legal seed and range. -/
theorem stream_completesAs (hi : ∀ s, performInstr i s = performStream mix s) (hseed : s.arg1.toNat < 0x10000)
    (h : InDmem s s.arg0.toNat s.arg2.toNat) :
    ∃ t, CompletesAs i s t ∧ Streamed mix s.arg1.toNat s.arg0.toNat s.arg2.toNat s t := by
  obtain ⟨t, ht, hstream⟩ := performStream_of_legal (mix := mix) hseed h
  exact ⟨t, completesAs_of_ok ((hi s).trans ht), hstream⟩

end

/-- Settles O17: RGEN performs the stream, each byte replaced. -/
theorem rgenWritesTheMask : Obligations.RgenWritesTheMask := by
  have hi := performRgen_eq_performStream
  refine ⟨decode_encode .rgen, fun s => ⟨stream_endsWith_of_bad_seed hi, stream_endsWith_of_outside hi,
    fun hseed hin => ?_⟩⟩
  obtain ⟨t, hexec, hrest, hinside, houtside⟩ := stream_completesAs hi hseed hin
  exact ⟨t, hexec, hrest, hinside, houtside⟩

/-- Settles O18: RMASK performs the stream, each byte XORed. -/
theorem rmaskXorsTheMask : Obligations.RmaskXorsTheMask := by
  have hi := performRmask_eq_performStream
  refine ⟨decode_encode .rmask, fun s => ⟨stream_endsWith_of_bad_seed hi, stream_endsWith_of_outside hi,
    fun hseed hin => ?_⟩⟩
  obtain ⟨t, hexec, hrest, hinside, houtside⟩ := stream_completesAs hi hseed hin
  exact ⟨t, hexec, hrest, hinside, houtside⟩

/-- Settles O19: the second RMASK has the seed and range of the first, so every byte meets the same mask byte twice. -/
theorem maskIsAnInvolution : Obligations.MaskIsAnInvolution := by
  intro s hseed hin
  have hi := performRmask_eq_performStream
  obtain ⟨t, ht, hstream⟩ := stream_completesAs hi hseed hin
  obtain ⟨hparams, harg0, harg1, harg2⟩ : t.complete.params = s.params ∧ t.complete.arg0 = s.arg0 ∧
    t.complete.arg1 = s.arg1 ∧ t.complete.arg2 = s.arg2 := hstream.operands
  obtain ⟨u, hu, _, huin, huout⟩ := stream_completesAs (s := t.complete) hi (harg1 ▸ hseed)
    (by rwa [InDmem, hparams, harg0, harg2])
  rw [hparams, harg0, harg1, harg2] at huin
  rw [harg0, harg2] at huout
  refine ⟨_, _, exec_of_completesAs ht, exec_of_completesAs hu, fun b => ?_⟩
  by_cases hb : b < s.arg0.toNat ∨ s.arg0.toNat + s.arg2.toNat ≤ b
  · exact (huout b hb).trans (hstream.outside b hb)
  · obtain ⟨i, rfl⟩ := Nat.exists_eq_add_of_le (show s.arg0.toNat ≤ b by omega)
    have hlt : i < s.arg2.toNat := by omega
    calc u.readByte (s.arg0.toNat + i)
        = t.readByte (s.arg0.toNat + i) ^^^ maskByte s.params s.arg1.toNat i := huin i hlt
      _ = s.readByte (s.arg0.toNat + i) ^^^ maskByte s.params s.arg1.toNat i ^^^ maskByte s.params s.arg1.toNat i := by
          rw [hstream.inside i hlt]
      _ = s.readByte (s.arg0.toNat + i) := by rw [BitVec.xor_assoc, BitVec.xor_self, BitVec.xor_zero]

/-- Settles O20: both streams are the mask of one seed under one SEED_EXT. -/
theorem theStreamDependsOnlyOnTheSeed : Obligations.TheStreamDependsOnlyOnTheSeed := by
  intro s s' hext harg1 harg2 hseed hin hin'
  have hi := performRgen_eq_performStream
  obtain ⟨t, ht, hstream⟩ := stream_completesAs hi hseed hin
  obtain ⟨t', ht', hstream'⟩ := stream_completesAs hi (harg1 ▸ hseed) hin'
  rw [harg1, harg2] at hstream'
  refine ⟨_, _, ht, ht', ?prng, fun i hlt => ?bytes⟩
  case prng =>
    calc t'.prng = maskState s'.params s.arg1.toNat s.arg2.toNat := hstream'.prng
      _ = maskState s.params s.arg1.toNat s.arg2.toNat := maskState_congr hext _ _
      _ = t.prng := hstream.prng.symm
  case bytes =>
    calc t'.readByte (s'.arg0.toNat + i) = maskByte s'.params s.arg1.toNat i := hstream'.inside i hlt
      _ = maskByte s.params s.arg1.toNat i := maskByte_congr hext _ _
      _ = t.readByte (s.arg0.toNat + i) := (hstream.inside i hlt).symm

end Sys2Proof.Machine
end

section
/-!
PROOFS. The arithmetic of GF(257) (41_gf_arith.md R120 to R128): the field operations in natural numbers, the inverse ROM, and
the commands, of which GADD, GSUB and GMUL are one command that differs in its operation.
-/

namespace Sys2Proof.Machine

open Sys2Proof.Statements

/-! ### The field operations in natural numbers -/

/-- mod257 answers a canonical field element (R128). -/
theorem mod257_le (x : Int) : mod257 x ≤ 256 := by
  rw [mod257]
  omega

theorem mod257_natCast (n : Nat) : mod257 n = n % 257 := by
  rw [mod257]
  omega

theorem fadd_eq_mod (a b : Nat) : fadd a b = (a + b) % 257 :=
  mod257_natCast (a + b)

/-- A canonical b is added back in as 257 − b, so the truncating difference is the field's. -/
theorem fsub_eq_mod (a : Nat) {b : Nat} (hb : b ≤ 256) : fsub a b = (a + 257 - b) % 257 := by
  rw [fsub, mod257]
  omega

theorem fmul_eq_mod (a b : Nat) : fmul a b = a * b % 257 := by
  rw [fmul, ← Nat.cast_mul, mod257_natCast]

/-! ### The inverse ROM -/

/-- R122's test of rows that begin at INV[n], entry by entry: the entry at i is canonical and inverts i. -/
abbrev InverseRows (n : Nat) (rows : List Nat) : Prop :=
  ∀ p ∈ rows.zipIdx n, p.1 ≤ 256 ∧ p.2 * p.1 % 257 = 1

theorem InverseRows.append {n m : Nat} {rows rest : List Nat} (h : InverseRows n rows) (hm : n + rows.length = m)
    (hrest : InverseRows m rest) : InverseRows n (rows ++ rest) := by
  subst hm
  intro p hp
  rw [List.zipIdx_append, List.mem_append] at hp
  exact hp.elim (h p) (hrest p)

theorem invRows0_checks : InverseRows 1 invRows0 := by decide

theorem invRows1_checks : InverseRows 64 invRows1 := by decide

theorem invRows2_checks : InverseRows 128 invRows2 := by decide

theorem invRows3_checks : InverseRows 192 invRows3 := by decide

theorem length_invRom : invRom.length = 256 := by
  simp only [invRom, List.length_append]
  rfl

theorem invRom_checks : InverseRows 1 invRom := by
  rw [invRom, List.append_assoc, List.append_assoc]
  exact invRows0_checks.append rfl (invRows1_checks.append rfl (invRows2_checks.append rfl invRows3_checks))

theorem mem_zipIdx_invRom {j : Nat} (hj : j < 256) : (inv (j + 1), j + 1) ∈ invRom.zipIdx 1 := by
  have hlen : j < invRom.length := by rwa [length_invRom]
  rw [List.mk_mem_zipIdx_iff_le_and_getElem?_sub, Nat.add_sub_cancel, inv, List.getD_eq_getElem _ _ hlen]
  exact ⟨Nat.le_add_left 1 j, List.getElem?_eq_getElem hlen⟩

section
variable {i : Nat}

/-- INV[i] is a canonical inverse of i (R122). -/
theorem inv_spec (hpos : 1 ≤ i) (hle : i ≤ 256) : inv i ≤ 256 ∧ i * inv i % 257 = 1 := by
  obtain ⟨j, rfl⟩ := Nat.exists_eq_add_of_le' hpos
  exact invRom_checks _ (mem_zipIdx_invRom (by omega))

theorem inv_le (hpos : 1 ≤ i) (hle : i ≤ 256) : inv i ≤ 256 := (inv_spec hpos hle).1

theorem mul_inv_mod (hpos : 1 ≤ i) (hle : i ≤ 256) : i * inv i % 257 = 1 := (inv_spec hpos hle).2

/-- INV[i] is not 0, whose product with i is 0 and not 1. -/
theorem one_le_inv (hpos : 1 ≤ i) (hle : i ≤ 256) : 1 ≤ inv i := by
  refine Nat.pos_of_ne_zero fun hzero => ?_
  have hone := mul_inv_mod hpos hle
  rw [hzero, Nat.mul_zero] at hone
  cases hone

/-- Two canonical inverses of one element agree: w = (i·v)·w = (i·w)·v = v. -/
theorem canonical_inverse_unique {v w : Nat} (hv : v ≤ 256) (hw : w ≤ 256) (hiv : i * v % 257 = 1)
    (hiw : i * w % 257 = 1) : v = w := by
  have hmod : v ≡ w [MOD 257] := calc
    v = 1 * v := (Nat.one_mul v).symm
    _ ≡ i * w * v [MOD 257] := (show i * w ≡ 1 [MOD 257] from hiw).symm.mul_right v
    _ = i * v * w := Nat.mul_right_comm i w v
    _ ≡ 1 * w [MOD 257] := (show i * v ≡ 1 [MOD 257] from hiv).mul_right w
    _ = w := Nat.one_mul w
  exact hmod.eq_of_lt_of_lt (by omega) (by omega)

/-- 257 is a prime, so it divides i² − 1 = (i + 1)(i − 1) through one of the factors. -/
theorem sq_mod_eq_one_iff (hpos : 1 ≤ i) (hle : i ≤ 256) : i * i % 257 = 1 ↔ i = 1 ∨ i = 256 := by
  have hprime : Nat.Prime 257 := by norm_num
  constructor
  · intro hsq
    have hdvd : 257 ∣ (i + 1) * (i - 1) := by
      rw [← Nat.mul_self_sub_mul_self_eq]
      omega
    rcases hprime.dvd_mul.mp hdvd with hsucc | hpred
    · omega
    · omega
  · rintro (rfl | rfl) <;> rfl

/-- An element is its own inverse exactly when its square is 1. -/
theorem inv_eq_self_iff (hpos : 1 ≤ i) (hle : i ≤ 256) : inv i = i ↔ i * i % 257 = 1 := by
  constructor
  · intro hself
    calc i * i % 257 = i * inv i % 257 := by rw [hself]
      _ = 1 := mul_inv_mod hpos hle
  · exact canonical_inverse_unique (inv_le hpos hle) hle (mul_inv_mod hpos hle)

end

/-- Settles O26: the table's entry is an inverse, an inverse is unique, and the square roots of 1 are 1 and 256. -/
theorem inverseTableIsTheUniqueInverse : Obligations.InverseTableIsTheUniqueInverse :=
  fun _ hpos hle => ⟨one_le_inv hpos hle, inv_le hpos hle, mul_inv_mod hpos hle,
    fun _ hv hiv => canonical_inverse_unique hv (inv_le hpos hle) hiv (mul_inv_mod hpos hle),
    (inv_eq_self_iff hpos hle).trans (sq_mod_eq_one_iff hpos hle)⟩

/-! ### GMOD -/

/-- GMOD never fails: every 32-bit pattern is a legal operand (R123). -/
theorem gmod_completesAs (s : State) : CompletesAs .gmod s (s.setRes0 (mod257 s.arg0.toInt)) :=
  completesAs_of_ok rfl

/-- Settles O21: mod257 is the Euclidean remainder by its definition (R120). -/
theorem gmodReducesTheSignedOperand : Obligations.GmodReducesTheSignedOperand :=
  ⟨decode_encode .gmod, gmod_completesAs⟩

/-! ### GINV -/

section
variable {s : State}

theorem performGinv_of_noncanonical (h : 256 < s.arg0.toNat) :
    performInstr .ginv s = .error ⟨.invalidArgument, Offset.arg0⟩ := by
  rw [performInstr, performGinv, canonOperand_of_gt h]
  rfl

theorem performGinv_of_zero (h : s.arg0.toNat = 0) :
    performInstr .ginv s = .error ⟨.arithmeticFailure, Offset.arg0⟩ := by
  rw [performInstr, performGinv, canonOperand_of_le (by omega), h]
  rfl

theorem performGinv_of_nonzero (hpos : 1 ≤ s.arg0.toNat) (hle : s.arg0.toNat ≤ 256) :
    performInstr .ginv s = .ok (s.setRes0 (inv s.arg0.toNat)) := by
  rw [performInstr, performGinv, canonOperand_of_le hle]
  exact if_neg (by omega)

end

/-- Settles O22: GINV reads the table at a nonzero canonical operand, where its entry is the inverse. -/
theorem ginvGivesTheInverse : Obligations.GinvGivesTheInverse :=
  ⟨decode_encode .ginv, fun s =>
    ⟨fun hbad => endsWith_of_error (performGinv_of_noncanonical hbad),
     fun hzero => endsWith_of_error (performGinv_of_zero hzero),
     fun hpos hle => ⟨inv s.arg0.toNat, one_le_inv hpos hle, inv_le hpos hle, mul_inv_mod hpos hle,
       completesAs_of_ok (performGinv_of_nonzero hpos hle)⟩⟩⟩

/-! ### GADD, GSUB and GMUL -/

section
variable {op : Nat → Nat → Nat} {s : State}

theorem performField_of_noncanonical_arg0 (h : 256 < s.arg0.toNat) :
    performField op s = .error ⟨.invalidArgument, Offset.arg0⟩ := by
  rw [performField, canonOperand_of_gt h]
  rfl

/-- ARG0 is checked first (R125). -/
theorem performField_of_noncanonical_arg1 (h0 : s.arg0.toNat ≤ 256) (h1 : 256 < s.arg1.toNat) :
    performField op s = .error ⟨.invalidArgument, Offset.arg1⟩ := by
  rw [performField, canonOperand_of_le h0, canonOperand_of_gt h1]
  rfl

theorem performField_of_canonical (h0 : s.arg0.toNat ≤ 256) (h1 : s.arg1.toNat ≤ 256) :
    performField op s = .ok (s.setRes0 (op s.arg0.toNat s.arg1.toNat)) := by
  rw [performField, canonOperand_of_le h0, canonOperand_of_le h1]
  rfl

end

/-- The command i is the field operation f on ARG0 and ARG1, with its checks in order (R125 to R127). -/
def IsFieldCommand (i : Instr) (f : Nat → Nat → Nat) (s : State) : Prop :=
  (256 < s.arg0.toNat → EndsWith i s .invalidArgument Offset.arg0) ∧
  (s.arg0.toNat ≤ 256 → 256 < s.arg1.toNat → EndsWith i s .invalidArgument Offset.arg1) ∧
  (s.arg0.toNat ≤ 256 → s.arg1.toNat ≤ 256 → CompletesAs i s (s.setRes0 (f s.arg0.toNat s.arg1.toNat)))

/-- A command that performs op is the field command of any f that op computes on canonical operands. -/
theorem isFieldCommand_of_performField {i : Instr} {op f : Nat → Nat → Nat}
    (hi : ∀ s, performInstr i s = performField op s) (hf : ∀ a b, b ≤ 256 → op a b = f a b) (s : State) :
    IsFieldCommand i f s :=
  ⟨fun h0 => endsWith_of_error ((hi s).trans (performField_of_noncanonical_arg0 h0)),
   fun h0 h1 => endsWith_of_error ((hi s).trans (performField_of_noncanonical_arg1 h0 h1)),
   fun h0 h1 => completesAs_of_ok (by rw [hi, performField_of_canonical h0 h1, hf _ _ h1])⟩

/-- Settles O23: GADD is the field command of the sum. -/
theorem gaddAddsFieldElements : Obligations.GaddAddsFieldElements :=
  ⟨decode_encode .gadd, isFieldCommand_of_performField (fun _ => rfl) fun a b _ => fadd_eq_mod a b⟩

/-- Settles O24: GSUB is the field command of the difference, with ARG1 canonical. -/
theorem gsubSubtractsFieldElements : Obligations.GsubSubtractsFieldElements :=
  ⟨decode_encode .gsub, isFieldCommand_of_performField (fun _ => rfl) fun a _ hb => fsub_eq_mod a hb⟩

/-- GMUL as the field command of the product (R127). -/
theorem gmul_isFieldCommand : ∀ s, IsFieldCommand .gmul (fun a b => a * b % 257) s :=
  isFieldCommand_of_performField (fun _ => rfl) fun a b _ => fmul_eq_mod a b

/-- Settles O25: GMUL is the field command of the product. -/
theorem gmulMultipliesFieldElements : Obligations.GmulMultipliesFieldElements :=
  ⟨decode_encode .gmul, gmul_isFieldCommand⟩

/-! ### Field correctness -/

/-- An inverse fits its register. -/
theorem toNat_ofNat_inv {a : Nat} (hpos : 1 ≤ a) (hle : a ≤ 256) : (BitVec.ofNat 32 (inv a)).toNat = inv a := by
  have hinv := inv_le hpos hle
  rw [BitVec.toNat_ofNat]
  omega

/-- GMUL of an element and its inverse writes 1. -/
theorem gmul_inv_completesAs {s : State} (hpos : 1 ≤ s.arg0.toNat) (hle : s.arg0.toNat ≤ 256)
    (harg1 : s.arg1 = BitVec.ofNat 32 (inv s.arg0.toNat)) : CompletesAs .gmul s (s.setRes0 1) := by
  have hb : s.arg1.toNat = inv s.arg0.toNat := by rw [harg1, toNat_ofNat_inv hpos hle]
  obtain ⟨-, -, hmul⟩ := gmul_isFieldCommand s
  have ht : CompletesAs .gmul s (s.setRes0 (s.arg0.toNat * s.arg1.toNat % 257)) := hmul hle (hb ▸ inv_le hpos hle)
  rwa [hb, mul_inv_mod hpos hle] at ht

/-- Settles O27: GMUL of a and INV[a] by the table's property, GMOD by the range of mod257. -/
theorem fieldCorrectness : Obligations.FieldCorrectness := by
  refine ⟨fun s hpos hle harg1 => ?inverse, fun s => ?range⟩
  case inverse => exact ⟨_, gmul_inv_completesAs hpos hle harg1, rfl, rfl⟩
  case range =>
    refine ⟨_, gmod_completesAs s, ?_⟩
    calc (BitVec.ofNat 32 (mod257 s.arg0.toInt)).toNat
        = mod257 s.arg0.toInt % 2 ^ 32 := BitVec.toNat_ofNat _ _
      _ ≤ mod257 s.arg0.toInt := Nat.mod_le _ _
      _ ≤ 256 := mod257_le _

end Sys2Proof.Machine
end

section
/-!
PROOFS. The polynomial and the coefficient repair (42_poly_share.md R140, R141, R145, R146), and the commands PEVAL, PSHARE and
PSHAREBUF (R142 to R144). A share is said to be its input repaired as often as its repair count asks, the least number of
repairs after which every value is a byte; PSHAREBUF is a sequence of memories, one per group.
-/

namespace Sys2Proof.Machine

open Sys2Proof.Statements

/-! ### The polynomial -/

theorem fpow_eq_mod (x e : Nat) : fpow x e = x ^ e % 257 := by
  rw [fpow, ← Nat.cast_pow, mod257_natCast]

/-- The model reduces each power, the polynomial none. -/
theorem polySum_modEq (x t : Nat) (c : List Nat) :
    polySum x t c ≡ ∑ i ∈ Finset.range c.length, c.getD i 0 * x ^ (t + i) [MOD 257] := by
  induction c generalizing t with
  | nil => rfl
  | cons a rest ih =>
    rw [polySum, fpow_eq_mod, List.length_cons, Finset.sum_range_succ', add_comm (a * _)]
    refine Nat.ModEq.add ?tail ((Nat.mod_modEq (x ^ t) 257).mul_left a)
    case tail => simpa only [List.getD_cons_succ, Nat.add_right_comm t, Nat.add_assoc] using ih (t + 1)

/-- evalPoly is the polynomial of R140. -/
theorem evalPoly_eq_poly (c : List Nat) (x : Nat) : evalPoly c x = poly c x := by
  have hmod := polySum_modEq x 0 c
  simp only [Nat.zero_add] at hmod
  rw [evalPoly, mod257_natCast, poly]
  exact hmod

theorem poly_le (c : List Nat) (x : Nat) : poly c x ≤ 256 :=
  Nat.le_of_lt_succ (Nat.mod_lt _ (by omega))

theorem poly_of_zero {c : List Nat} (h : ∀ a ∈ c, a = 0) (x : Nat) : poly c x = 0 := by
  have hsum : ∑ t ∈ Finset.range c.length, c.getD t 0 * x ^ t = 0 := by
    refine Finset.sum_eq_zero fun t ht => ?_
    have hlt : t < c.length := Finset.mem_range.mp ht
    rw [List.getD_eq_getElem _ _ hlt, h _ (List.getElem_mem hlt), Nat.zero_mul]
  rw [poly, hsum]

/-! ### One repair -/

/-- Settles O30, along the coefficients before the lowest nonzero one. -/
theorem repairLowersTheFirstNonzero : Obligations.RepairLowersTheFirstNonzero := by
  intro c
  induction c with
  | nil => exact fun t ht => absurd ht (Nat.not_lt_zero t)
  | cons a rest ih =>
    intro t ht hne hzero
    cases t with
    | zero => exact if_neg hne
    | succ t =>
      have ha : a = 0 := hzero 0 (Nat.succ_pos t)
      have hrest := ih t (Nat.lt_of_succ_lt_succ ht) hne fun i hi => hzero (i + 1) (Nat.succ_lt_succ hi)
      rw [repairOnce, if_pos ha, hrest]
      rfl

@[simp] theorem length_repairOnce (c : List Nat) : (repairOnce c).length = c.length := by
  induction c with
  | nil => rfl
  | cons a rest ih => by_cases ha : a = 0 <;> simp [repairOnce, ha, ih]

/-- A repair lowers the sum by 1, unless every coefficient is 0 (R146). -/
theorem sum_repairOnce (c : List Nat) : (repairOnce c).sum = c.sum - 1 := by
  induction c with
  | nil => rfl
  | cons a rest ih =>
    by_cases ha : a = 0
    · simp [repairOnce, ha, ih]
    · simp only [repairOnce, if_neg ha, List.sum_cons]
      omega

/-- A repair raises no coefficient. -/
theorem repairOnce_le {b : Nat} {c : List Nat} (h : ∀ a ∈ c, a ≤ b) : ∀ a ∈ repairOnce c, a ≤ b := by
  induction c with
  | nil => exact h
  | cons a rest ih =>
    obtain ⟨hhead, htail⟩ := List.forall_mem_cons.mp h
    by_cases ha : a = 0
    · rw [repairOnce, if_pos ha]
      exact List.forall_mem_cons.mpr ⟨hhead, ih htail⟩
    · rw [repairOnce, if_neg ha]
      exact List.forall_mem_cons.mpr ⟨by omega, htail⟩

/-! ### Several repairs -/

theorem sum_repairs (r : Nat) (c : List Nat) : (repairOnce^[r] c).sum = c.sum - r := by
  induction r with
  | zero => rfl
  | succ r ih => rw [Function.iterate_succ_apply', sum_repairOnce, ih, Nat.sub_sub]

theorem repairs_le {b : Nat} {c : List Nat} (h : ∀ a ∈ c, a ≤ b) (r : Nat) : ∀ a ∈ repairOnce^[r] c, a ≤ b := by
  induction r with
  | zero => exact h
  | succ r ih =>
    rw [Function.iterate_succ_apply']
    exact repairOnce_le ih

/-- Every value at 1 to n is a byte: the test that ends the loop of R141. -/
def ValuesAreBytes (n : Nat) (c : List Nat) : Prop := ∀ i, 1 ≤ i → i ≤ n → poly c i ≤ 255

theorem valuesAreBytes_of_sum_eq_zero {c : List Nat} (h : c.sum = 0) (n : Nat) : ValuesAreBytes n c := fun i _ _ => by
  rw [poly_of_zero (List.sum_eq_zero_iff.mp h)]
  omega

theorem not_valuesAreBytes_iff {n : Nat} {c : List Nat} :
    ¬ ValuesAreBytes n c ↔ ∃ i, 1 ≤ i ∧ i ≤ n ∧ poly c i = 256 := by
  have hle := poly_le c
  constructor
  · intro h
    simp only [ValuesAreBytes, not_forall] at h
    obtain ⟨i, hpos, hi, hbig⟩ := h
    exact ⟨i, hpos, hi, by have := hle i; omega⟩
  · rintro ⟨i, hpos, hi, hval⟩ h
    have := h i hpos hi
    omega

/-- The number of repairs share makes: the least after which every value is a byte (R141). -/
structure IsRepairCount (n : Nat) (c : List Nat) (r : Nat) : Prop where
  needed : ∀ r', r' < r → ¬ ValuesAreBytes n (repairOnce^[r'] c)
  enough : ValuesAreBytes n (repairOnce^[r] c)

/-- As many repairs as the sum leave only zeros (R146). -/
theorem exists_isRepairCount (n : Nat) (c : List Nat) : ∃ r, IsRepairCount n c r := by
  classical
  have hend : ∃ r, ValuesAreBytes n (repairOnce^[r] c) :=
    ⟨c.sum, valuesAreBytes_of_sum_eq_zero (by rw [sum_repairs, Nat.sub_self]) n⟩
  exact ⟨Nat.find hend, fun _ => Nat.find_min hend, Nat.find_spec hend⟩

section
variable {n r : Nat} {c : List Nat}

theorem IsRepairCount.le_sum (h : IsRepairCount n c r) : r ≤ c.sum := by
  by_contra hlt
  exact h.needed c.sum (Nat.lt_of_not_le hlt) (valuesAreBytes_of_sum_eq_zero (by rw [sum_repairs, Nat.sub_self]) n)

theorem IsRepairCount.sum_add (h : IsRepairCount n c r) : (repairOnce^[r] c).sum + r = c.sum := by
  rw [sum_repairs, Nat.sub_add_cancel h.le_sum]

theorem IsRepairCount.of_succ (h : IsRepairCount n c (r + 1)) : IsRepairCount n (repairOnce c) r :=
  ⟨fun r' hr' => h.needed (r' + 1) (Nat.succ_lt_succ hr'), h.enough⟩

/-! ### The loop of share -/

theorem all_isByte_shareValues_iff : (shareValues c n).all isByte = true ↔ ValuesAreBytes n c := by
  simp only [shareValues, List.all_map, List.all_eq_true, List.mem_range, Function.comp_apply, isByte, decide_eq_true_eq,
    evalPoly_eq_poly]
  refine ⟨fun h i hpos hi => ?_, fun h i hi => h (i + 1) (by omega) hi⟩
  obtain ⟨i, rfl⟩ := Nat.exists_eq_add_of_le' hpos
  exact h i hi

/-- With fuel for its repairs the loop makes exactly as many as are needed. -/
theorem shareLoop_of_isRepairCount {fuel : Nat} (h : IsRepairCount n c r) (hfuel : r ≤ fuel) (r₀ : Nat) :
    shareLoop fuel c n r₀ = (repairOnce^[r] c, shareValues (repairOnce^[r] c) n, r₀ + r) := by
  induction r generalizing c fuel r₀ with
  | zero =>
    have hbytes : (shareValues c n).all isByte = true := all_isByte_shareValues_iff.mpr h.enough
    cases fuel with
    | zero => rfl
    | succ fuel => exact if_pos hbytes
  | succ r ih =>
    obtain ⟨fuel, rfl⟩ := Nat.exists_eq_add_of_le' (Nat.le_trans (Nat.succ_pos r) hfuel)
    have hrepair : ¬ (shareValues c n).all isByte = true :=
      all_isByte_shareValues_iff.not.mpr (h.needed 0 (Nat.succ_pos r))
    rw [shareLoop, if_neg hrepair, ih h.of_succ (Nat.le_of_succ_le_succ hfuel), Nat.add_assoc, Nat.add_comm 1 r]
    rfl

theorem share_of_isRepairCount (h : IsRepairCount n c r) :
    share c n = (repairOnce^[r] c, shareValues (repairOnce^[r] c) n, r) := by
  rw [share, shareLoop_of_isRepairCount h h.le_sum, Nat.zero_add]

end

theorem getD_shareValues {n i : Nat} (c : List Nat) (hi : i < n) : (shareValues c n).getD i 0 = poly c (i + 1) := by
  rw [List.getD_eq_getElem _ _ (by simpa [shareValues] using hi)]
  simp [shareValues, evalPoly_eq_poly]

theorem mem_shareValues {n v : Nat} {c : List Nat} : v ∈ shareValues c n ↔ ∃ i, i < n ∧ poly c (i + 1) = v := by
  simp [shareValues, evalPoly_eq_poly]

/-- The values share answers are bytes (R145). -/
theorem share_values_le (c : List Nat) (n : Nat) : ∀ v ∈ (share c n).2.1, v ≤ 255 := by
  obtain ⟨r, hr⟩ := exists_isRepairCount n c
  rw [share_of_isRepairCount hr]
  intro v hv
  obtain ⟨i, hi, rfl⟩ := mem_shareValues.mp hv
  exact hr.enough (i + 1) (by omega) hi

/-- The coefficients share answers for bytes are bytes. -/
theorem share_coefs_le {c : List Nat} (h : ∀ a ∈ c, a ≤ 255) (n : Nat) : ∀ a ∈ (share c n).1, a ≤ 255 := by
  obtain ⟨r, hr⟩ := exists_isRepairCount n c
  rw [share_of_isRepairCount hr]
  exact repairs_le h r

/-- Settles O31: the repairs needed are no more than the sum, so any fuel from the sum up is enough. -/
theorem repairLoopEnds : Obligations.RepairLoopEnds := by
  intro c n hbytes
  obtain ⟨r, hr⟩ := exists_isRepairCount n c
  refine ⟨?count, ?sum, share_values_le c n, fun extra => ?fuel⟩
  case count =>
    rw [share_of_isRepairCount hr]
    exact hr.le_sum
  case sum =>
    rw [Nat.mul_comm]
    exact List.sum_le_card_nsmul c 255 hbytes
  case fuel =>
    rw [share_of_isRepairCount hr, shareLoop_of_isRepairCount hr (Nat.le_add_right_of_le hr.le_sum), Nat.zero_add]

/-- Settles O32: each repair lowers the sum by 1, so a repaired list has another sum. -/
theorem repairIsLossy : Obligations.RepairIsLossy := by
  intro c n _
  obtain ⟨r, hr⟩ := exists_isRepairCount n c
  rw [share_of_isRepairCount hr]
  have hsum := hr.sum_add
  refine ⟨hsum, fun hpos heq => ?_⟩
  replace heq : repairOnce^[r] c = c := heq
  rw [heq] at hsum
  replace hpos : 0 < r := hpos
  omega

/-! ### PEVAL -/

section
variable {s : State} {k : Nat}

theorem canonCoefOperand_of_all (h : ∀ j, j < k → (s.coefEntry j).toNat ≤ 256) :
    canonCoefOperand s k = .ok (coefs s k) :=
  entriesOperand_of_all fun j hj => decide_eq_true (h j hj)

theorem canonCoefOperand_of_first {j : Nat} (hj : j < k) (hbad : 256 < (s.coefEntry j).toNat)
    (hgood : ∀ i, i < j → (s.coefEntry i).toNat ≤ 256) :
    canonCoefOperand s k = .error ⟨.invalidArgument, Offset.coef j⟩ :=
  entriesOperand_of_first hj (decide_eq_false (Nat.not_le.mpr hbad)) fun i hi => decide_eq_true (hgood i hi)

theorem performPeval_of_bad_k (h : ¬ LegalK s) : performInstr .peval s = .error ⟨.invalidArgument, Offset.cfg⟩ := by
  rw [performInstr, performPeval, thresholdOperand_of_illegal (by rw [LegalK] at h; omega), Except.bind_of_error]

/-- PEVAL after the check of CFG.K. -/
theorem performPeval_of_legal (h : LegalK s) : performInstr .peval s =
    (do
      let x ← canonOperand s.arg0 Offset.arg0
      let c ← canonCoefOperand s s.cfgK.toNat
      pure (s.setRes0 (evalPoly c x))) := by
  obtain ⟨hmin, hmax⟩ := h
  rw [performInstr, performPeval, thresholdOperand_of_legal hmin hmax, Except.bind_of_ok]

end

/-- Settles O28: the checks one after another, and the evaluation in numbers. -/
theorem pevalEvaluatesThePolynomial : Obligations.PevalEvaluatesThePolynomial := by
  refine ⟨decode_encode .peval, fun s => ⟨fun hk => endsWith_of_error (performPeval_of_bad_k hk),
    fun hk hx => endsWith_of_error ?point, fun hk hx j hj hbad hgood => endsWith_of_error ?coefficient,
    fun hk hx hc => completesAs_of_ok ?value⟩⟩
  case point => rw [performPeval_of_legal hk, canonOperand_of_gt hx, Except.bind_of_error]
  case coefficient =>
    rw [performPeval_of_legal hk, canonOperand_of_le hx, Except.bind_of_ok, canonCoefOperand_of_first hj hbad hgood,
      Except.bind_of_error]
    rfl
  case value =>
    rw [performPeval_of_legal hk, canonOperand_of_le hx, Except.bind_of_ok, canonCoefOperand_of_all hc,
      Except.bind_of_ok, evalPoly_eq_poly]
    rfl

/-! ### PSHARE -/

section
variable {s : State} {k : Nat}

theorem byteCoefOperand_of_all (h : ∀ j, j < k → (s.coefEntry j).toNat ≤ 255) :
    byteCoefOperand s k = .ok (coefs s k) :=
  entriesOperand_of_all fun j hj => decide_eq_true (h j hj)

theorem byteCoefOperand_of_first {j : Nat} (hj : j < k) (hbad : 255 < (s.coefEntry j).toNat)
    (hgood : ∀ i, i < j → (s.coefEntry i).toNat ≤ 255) :
    byteCoefOperand s k = .error ⟨.invalidArgument, Offset.coef j⟩ :=
  entriesOperand_of_first hj (decide_eq_false (Nat.not_le.mpr hbad)) fun i hi => decide_eq_true (hgood i hi)

theorem coefs_le {b : Nat} (h : ∀ j, j < k → (s.coefEntry j).toNat ≤ b) : ∀ a ∈ coefs s k, a ≤ b := by
  intro a ha
  obtain ⟨j, hj, rfl⟩ := List.mem_map.mp ha
  exact h j (List.mem_range.mp hj)

theorem shareOperand_of_legalKN (h : LegalKN s) : shareOperand s = .ok (s.cfgK.toNat, s.cfgN.toNat) := by
  obtain ⟨⟨hmin, hmax⟩, hn⟩ := h
  exact shareOperand_of_legal hmin hmax hn

theorem shareOperand_of_not_legalKN (h : ¬ LegalKN s) : shareOperand s = .error ⟨.invalidArgument, Offset.cfg⟩ :=
  shareOperand_of_illegal (by rw [LegalKN, LegalK] at h; omega)

theorem performPshare_of_bad_k (h : ¬ LegalKN s) : performInstr .pshare s = .error ⟨.invalidArgument, Offset.cfg⟩ := by
  rw [performInstr, performPshare, shareOperand_of_not_legalKN h, Except.bind_of_error]

theorem performPshare_of_first {j : Nat} (h : LegalKN s) (hj : j < s.cfgK.toNat) (hbad : 255 < (s.coefEntry j).toNat)
    (hgood : ∀ i, i < j → (s.coefEntry i).toNat ≤ 255) :
    performInstr .pshare s = .error ⟨.invalidArgument, Offset.coef j⟩ := by
  rw [performInstr, performPshare, shareOperand_of_legalKN h, Except.bind_of_ok]
  dsimp only
  rw [byteCoefOperand_of_first hj hbad hgood, Except.bind_of_error]

end

/-- What PSHARE leaves for repaired coefficients, their values and the repair count (R143). -/
def State.storeShare (s : State) (c v : List Nat) (r : Nat) : State :=
  (((s.storeCoefs s.cfgK.toNat c).storeValues s.cfgN.toNat v).setRepairs r).flagRepairs r

theorem performPshare_of_legal {s : State} (h : LegalKN s) (hc : ∀ j, j < s.cfgK.toNat → (s.coefEntry j).toNat ≤ 255) :
    performInstr .pshare s = .ok (s.storeShare (share (coefs s s.cfgK.toNat) s.cfgN.toNat).1
      (share (coefs s s.cfgK.toNat) s.cfgN.toNat).2.1 (share (coefs s s.cfgK.toNat) s.cfgN.toNat).2.2) := by
  rw [performInstr, performPshare, shareOperand_of_legalKN h, Except.bind_of_ok]
  dsimp only
  rw [byteCoefOperand_of_all hc, Except.bind_of_ok]
  rfl

/-- PSHARE sets COEF, YTAB, REPAIRS and RPR only. -/
theorem State.storeShare_eq (s : State) (c v : List Nat) (r : Nat) : s.storeShare c v r =
    { s with
      coef := (s.storeShare c v r).coef
      ytab := (s.storeShare c v r).ytab
      repairs := BitVec.ofNat 32 (min r (2 ^ 32 - 1))
      status := { s.status with rpr := s.status.rpr || decide (0 < r) } } := by
  obtain ⟨m, hm⟩ : ∃ m, s.storeCoefs s.cfgK.toNat c = { s with coef := m } := ⟨_, s.storeCoefs_eq _ _⟩
  rw [State.storeShare, hm, State.storeValues_eq]
  rfl

theorem State.coefEntry_storeShare (s : State) (c v : List Nat) (r j : Nat) : (s.storeShare c v r).coefEntry j =
    if j < s.cfgK.toNat then BitVec.ofNat 9 (c.getD j 0) else s.coefEntry j := by
  rw [← State.coefEntry_storeCoefs, State.storeShare, State.storeValues_eq]
  rfl

theorem State.yEntry_storeShare (s : State) (c v : List Nat) (r j : Nat) : (s.storeShare c v r).yEntry j =
    if j < s.cfgN.toNat then BitVec.ofNat 9 (v.getD j 0) else s.yEntry j := by
  have hcoefs : (s.storeCoefs s.cfgK.toNat c).yEntry j = s.yEntry j := by
    rw [State.storeCoefs_eq]
    rfl
  rw [← hcoefs]
  exact State.yEntry_storeValues _ _ _ _

/-- An entry of a list of bytes, or the 0 past its end, is a byte. -/
theorem getD_le_of_forall_le {b : Nat} {c : List Nat} (h : ∀ a ∈ c, a ≤ b) (j : Nat) : c.getD j 0 ≤ b := by
  by_cases hj : j < c.length
  · rw [List.getD_eq_getElem _ _ hj]
    exact h _ (List.getElem_mem hj)
  · rw [List.getD_eq_default _ _ (Nat.le_of_not_lt hj)]
    exact Nat.zero_le b

/-- A byte fits a location of at least 8 bits. -/
theorem toNat_ofNat_of_byte {w v : Nat} (hw : 8 ≤ w) (hv : v ≤ 255) : (BitVec.ofNat w v).toNat = v := by
  have hpow : 2 ^ 8 ≤ 2 ^ w := Nat.pow_le_pow_right (by omega) hw
  rw [BitVec.toNat_ofNat]
  exact Nat.mod_eq_of_lt (by omega)

/-- Settles O29: the count is the one share makes, and every stored number is a byte. -/
theorem pshareRepairsAndShares : Obligations.PshareRepairsAndShares := by
  refine ⟨decode_encode .pshare, fun s => ⟨fun hkn => endsWith_of_error (performPshare_of_bad_k hkn),
    fun hkn j hj hbad hgood => endsWith_of_error (performPshare_of_first hkn hj hbad hgood), fun hkn hc => ?_⟩⟩
  obtain ⟨r, hr⟩ := exists_isRepairCount s.cfgN.toNat (coefs s s.cfgK.toNat)
  have hperform := performPshare_of_legal hkn hc
  rw [share_of_isRepairCount hr] at hperform
  have hcoef := getD_le_of_forall_le (repairs_le (coefs_le hc) r)
  refine ⟨_, r, completesAs_of_ok hperform, fun r' hlt => not_valuesAreBytes_iff.mp (hr.needed r' hlt), hr.enough,
    fun j hj => ?coefs, fun j hj => ?otherCoefs, fun i hi => ?values, fun i hi => ?otherValues, State.storeShare_eq ..⟩
  case coefs => rw [State.coefEntry_storeShare, if_pos hj, toNat_ofNat_of_byte (by omega) (hcoef j)]
  case otherCoefs => rw [State.coefEntry_storeShare, if_neg (by omega)]
  case values =>
    rw [State.yEntry_storeShare, if_pos hi, getD_shareValues _ hi,
      toNat_ofNat_of_byte (by omega) (hr.enough (i + 1) (by omega) hi)]
  case otherValues => rw [State.yEntry_storeShare, if_neg (by omega)]

end Sys2Proof.Machine
end

section
/-!
PROOFS. PSHAREBUF (42_poly_share.md R144, 70_reset_and_hazards.md R258): a sequence of memories, one per group, of which each
differs from the one before in the bytes its group writes. On ranges that do not overlap no byte is written twice, so what a
group finds and what it leaves are read from the first and the last memory.
-/

namespace Sys2Proof.Machine

open Sys2Proof.Statements

/-! ### The checks of PSHAREBUF -/

section
variable {s : State}

theorem State.inRange_eq_false_iff {base len : Nat} : s.inRange base len = false ↔ ¬ InDmem s base len := by
  rw [← Bool.not_eq_true, State.inRange_iff, InDmem]

theorem performPsharebuf_of_bad_k (h : ¬ LegalKN s) :
    performInstr .psharebuf s = .error ⟨.invalidArgument, Offset.cfg⟩ := by
  rw [performInstr, performPsharebuf, shareOperand_of_not_legalKN h, Except.bind_of_error]

theorem performPsharebuf_of_shadow_outside {m : Nat} (h : LegalKN s) (hm : m < s.cfgN.toNat)
    (hout : ¬ InDmem s (s.arg0.toNat + m * s.arg3.toNat) s.arg2.toNat) :
    performInstr .psharebuf s = .error ⟨.addressError, Offset.arg0⟩ := by
  rw [performInstr, performPsharebuf, shareOperand_of_legalKN h, Except.bind_of_ok]
  dsimp only
  rw [stridedOperand_of_outside hm (State.inRange_eq_false_iff.mpr hout), Except.bind_of_error]

theorem performPsharebuf_of_source_outside (h : LegalKN s)
    (hin : ∀ m, m < s.cfgN.toNat → InDmem s (s.arg0.toNat + m * s.arg3.toNat) s.arg2.toNat)
    (hout : ¬ InDmem s s.arg1.toNat (s.arg2.toNat * s.cfgK.toNat)) :
    performInstr .psharebuf s = .error ⟨.addressError, Offset.arg1⟩ := by
  rw [performInstr, performPsharebuf, shareOperand_of_legalKN h, Except.bind_of_ok]
  dsimp only
  rw [stridedOperand_of_inRange fun m hm => State.inRange_iff.mpr (hin m hm), Except.bind_of_ok,
    rangeOperand_of_outside (State.inRange_eq_false_iff.mpr hout), Except.bind_of_error]

end

/-! ### The groups of PSHAREBUF -/

/-- The state after the first j groups of PSHAREBUF, and the repairs made in them. -/
def State.afterGroups (s : State) (j : Nat) : State × Nat :=
  forUp j (sharePass s.cfgK.toNat s.cfgN.toNat s.arg0.toNat s.arg1.toNat s.arg3.toNat) (s, 0)

/-- DMEM as the first j groups of PSHAREBUF leave it (R258). -/
def State.memoryAfter (s : State) (j : Nat) : Nat → Byte := (s.afterGroups j).1.readByte

/-- What group j of PSHAREBUF is shared into, as the groups before it left it. -/
def State.groupShare (s : State) (j : Nat) : List Nat × List Nat × Nat :=
  share (groupIn (s.memoryAfter j) (s.arg1.toNat + j * s.cfgK.toNat) s.cfgK.toNat) s.cfgN.toNat

/-- Group j: its repaired coefficients over it, its values to pixel j of each shadow, its repairs counted (R144). -/
theorem State.afterGroups_succ (s : State) (j : Nat) : s.afterGroups (j + 1) =
    (((s.afterGroups j).1.storeStrided (s.arg1.toNat + j * s.cfgK.toNat) 1 s.cfgK.toNat (s.groupShare j).1).storeStrided
        (s.arg0.toNat + j) s.arg3.toNat s.cfgN.toNat (s.groupShare j).2.1,
      (s.afterGroups j).2 + (s.groupShare j).2.2) := rfl

theorem State.afterGroups_repairs (s : State) (j : Nat) :
    (s.afterGroups j).2 = ∑ i ∈ Finset.range j, (s.groupShare i).2.2 := by
  induction j with
  | zero => rfl
  | succ j ih => rw [State.afterGroups_succ, Finset.sum_range_succ, ih]

/-- The groups change DMEM only. -/
theorem State.afterGroups_eq (s : State) (j : Nat) :
    (s.afterGroups j).1 = { s with dmem := (s.afterGroups j).1.dmem } := by
  induction j with
  | zero => rfl
  | succ j ih =>
    obtain ⟨m, hm⟩ : ∃ m, (s.afterGroups j).1 = { s with dmem := m } := ⟨_, ih⟩
    rw [State.afterGroups_succ, hm, State.storeStrided_eq, State.storeStrided_eq]

/-- What PSHAREBUF leaves before its completion (R144). -/
def State.psharebufEnd (s : State) : State :=
  { s with
    dmem := (s.afterGroups s.arg2.toNat).1.dmem
    repairs := BitVec.ofNat 32 (min (s.afterGroups s.arg2.toNat).2 (2 ^ 32 - 1))
    status := { s.status with rpr := s.status.rpr || decide (0 < (s.afterGroups s.arg2.toNat).2) } }

theorem performPsharebuf_of_legal {s : State} (h : LegalKN s)
    (hshadows : ∀ m, m < s.cfgN.toNat → InDmem s (s.arg0.toNat + m * s.arg3.toNat) s.arg2.toNat)
    (hsource : InDmem s s.arg1.toNat (s.arg2.toNat * s.cfgK.toNat)) :
    performInstr .psharebuf s = .ok s.psharebufEnd := by
  have hend : ((s.afterGroups s.arg2.toNat).1.setRepairs (s.afterGroups s.arg2.toNat).2).flagRepairs
      (s.afterGroups s.arg2.toNat).2 = s.psharebufEnd := by
    rw [State.afterGroups_eq]
    rfl
  rw [performInstr, performPsharebuf, shareOperand_of_legalKN h, Except.bind_of_ok]
  dsimp only
  rw [stridedOperand_of_inRange fun m hm => State.inRange_iff.mpr (hshadows m hm), Except.bind_of_ok,
    rangeOperand_of_inRange (State.inRange_iff.mpr hsource), Except.bind_of_ok, ← hend]
  rfl

theorem State.psharebufEnd_readByte (s : State) (a : Nat) :
    s.psharebufEnd.readByte a = s.memoryAfter s.arg2.toNat a := by
  rw [State.memoryAfter, State.afterGroups_eq]
  rfl

/-- REPAIRS is the sum of the groups' repairs, saturated (R33). -/
theorem State.psharebufEnd_repairs (s : State) :
    s.psharebufEnd.repairs.toNat = min (∑ j ∈ Finset.range s.arg2.toNat, (s.groupShare j).2.2) (2 ^ 32 - 1) := by
  rw [State.psharebufEnd, BitVec.toNat_ofNat, State.afterGroups_repairs]
  exact Nat.mod_eq_of_lt (by omega)

/-- A saturated count is 0 exactly when nothing was repaired. -/
theorem saturated_ne_zero_iff (r : Nat) : BitVec.ofNat 32 (min r (2 ^ 32 - 1)) ≠ 0#32 ↔ 0 < r := by
  rw [Ne, ← BitVec.toNat_inj, BitVec.toNat_ofNat, BitVec.toNat_ofNat]
  omega

/-- RPR is set exactly when REPAIRS is not 0 (R144). -/
theorem State.psharebufEnd_eq (s : State) : s.psharebufEnd =
    { s with
      dmem := s.psharebufEnd.dmem
      repairs := s.psharebufEnd.repairs
      status := { s.status with rpr := s.status.rpr || decide (s.psharebufEnd.repairs ≠ 0#32) } } := by
  have hrpr : decide (s.psharebufEnd.repairs ≠ 0#32) = decide (0 < (s.afterGroups s.arg2.toNat).2) :=
    decide_eq_decide.mpr (saturated_ne_zero_iff _)
  rw [hrpr]
  rfl

theorem State.psharebufEnd_of_no_group {s : State} (h : s.arg2.toNat = 0) :
    s.psharebufEnd.dmem = s.dmem ∧ s.psharebufEnd.repairs = 0#32 := by
  rw [State.psharebufEnd, h]
  exact ⟨rfl, rfl⟩

/-- Settles O33: the checks one after another; the frame is the one every command has. -/
theorem psharebufChecksAndCompletes : Obligations.PsharebufChecksAndCompletes := by
  refine ⟨decode_encode .psharebuf, fun s => ⟨fun hkn => endsWith_of_error (performPsharebuf_of_bad_k hkn), ?shadows,
    fun hkn hin hout => endsWith_of_error (performPsharebuf_of_source_outside hkn hin hout), fun hkn hin hsource => ?_⟩⟩
  case shadows =>
    rintro hkn ⟨m, hm, hout⟩
    exact endsWith_of_error (performPsharebuf_of_shadow_outside hkn hm hout)
  have hperform := performPsharebuf_of_legal hkn hin hsource
  exact ⟨_, completesAs_of_ok hperform, s.psharebufEnd_eq, (performInstr_frame hperform).bytes,
    State.psharebufEnd_of_no_group⟩

/-! ### What one group writes -/

/-- A byte that group j writes: pixel j of a shadow, or a byte of the group. -/
def GroupWrites (k n d p stride j b : Nat) : Prop :=
  (∃ i, i < n ∧ b = d + i * stride + j) ∨ (p + j * k ≤ b ∧ b < p + j * k + k)

/-- Group j from the memory m to the memory m', shared into out: where pixels fall on one byte the last stands, and pixels stand
over the group (R144). -/
structure GroupStep (k n d p stride j : Nat) (out : List Nat × List Nat × Nat) (m m' : Nat → Byte) : Prop where
  pixel : ∀ i, i < n → (∀ i', i < i' → i' < n → d + i' * stride + j ≠ d + i * stride + j) →
    (m' (d + i * stride + j)).toNat = out.2.1.getD i 0
  source : ∀ i, i < k → (∀ i', i' < n → p + j * k + i ≠ d + i' * stride + j) →
    (m' (p + j * k + i)).toNat = out.1.getD i 0
  other : ∀ b, ¬ GroupWrites k n d p stride j b → m' b = m b

/-- A stored byte over which no later one of the same store falls. -/
theorem State.readByte_storeStrided_last (s : State) {a stride m j : Nat} (v : List Nat) (hj : j < m)
    (hlast : ∀ i, j < i → i < m → a + i * stride ≠ a + j * stride) :
    (s.storeStrided a stride m v).readByte (a + j * stride) = BitVec.ofNat 8 (v.getD j 0) := by
  unfold State.storeStrided
  refine forUp_induct
    (fun n (t : State) => j < n → t.readByte (a + j * stride) = BitVec.ofNat 8 (v.getD j 0)) ?before ?pass hj
  case before => exact fun h => absurd h (Nat.not_lt_zero j)
  case pass =>
    intro i t hi ht hlt
    rcases Nat.lt_succ_iff_lt_or_eq.mp hlt with hji | rfl
    · rw [State.readByte_writeByte_other _ _ (hlast i hji hi).symm, ht hji]
    · exact t.readByte_writeByte_same _ _

/-- The bytes of a group are bytes. -/
theorem groupIn_le (m : Nat → Byte) (a k : Nat) : ∀ c ∈ groupIn m a k, c ≤ 255 := by
  intro c hc
  obtain ⟨i, -, rfl⟩ := List.mem_map.mp hc
  exact Nat.le_of_lt_succ (m (a + i)).isLt

theorem State.groupShare_values_le (s : State) (j i : Nat) : (s.groupShare j).2.1.getD i 0 ≤ 255 :=
  getD_le_of_forall_le (share_values_le _ _) i

theorem State.groupShare_coefs_le (s : State) (j i : Nat) : (s.groupShare j).1.getD i 0 ≤ 255 :=
  getD_le_of_forall_le (share_coefs_le (groupIn_le _ _ _) _) i

/-- Each group of PSHAREBUF writes what a group writes. -/
theorem State.afterGroups_step (s : State) (j : Nat) :
    GroupStep s.cfgK.toNat s.cfgN.toNat s.arg0.toNat s.arg1.toNat s.arg3.toNat j (s.groupShare j)
      (s.memoryAfter j) (s.memoryAfter (j + 1)) := by
  refine ⟨fun i hi hlast => ?pixel, fun i hi hfree => ?source, fun b hb => ?other⟩ <;>
    rw [State.memoryAfter, State.afterGroups_succ]
  case pixel =>
    rw [Nat.add_right_comm, State.readByte_storeStrided_last _ _ hi fun i' hlt hi' => ?_,
      toNat_ofNat_of_byte (Nat.le_refl 8) (s.groupShare_values_le j i)]
    have hne := hlast i' hlt hi'
    omega
  case source =>
    have hat := State.readByte_storeStrided_at (s.afterGroups j).1 (a := s.arg1.toNat + j * s.cfgK.toNat)
      (s.groupShare j).1 Nat.one_pos hi
    rw [Nat.mul_one] at hat
    rw [State.readByte_storeStrided_outside _ _ fun i' hi' => ?_, hat,
      toNat_ofNat_of_byte (Nat.le_refl 8) (s.groupShare_coefs_le j i)]
    have hne := hfree i' hi'
    omega
  case other =>
    obtain ⟨hpixel, hsource⟩ := not_or.mp hb
    rw [State.readByte_storeStrided_outside _ _ fun i hi heq => hpixel ⟨i, hi, by omega⟩,
      State.readByte_storeStrided_outside _ _ fun i hi heq => hsource (by omega)]
    rfl

/-! ### Ranges that do not overlap -/

/-- Byte i of group j lies in the source range. -/
theorem group_byte_lt {g j k i : Nat} (hj : j < g) (hi : i < k) : j * k + i < g * k := by
  have hle : (j + 1) * k ≤ g * k := Nat.mul_le_mul_right k hj
  rw [Nat.succ_mul] at hle
  omega

section
variable {k n d p stride g : Nat} (hapart : ∀ i, i < n → Apart p (g * k) (d + i * stride) g)
include hapart

/-- A byte of a group is written by that group alone. -/
theorem not_groupWrites_source {j q i : Nat} (hj : j < g) (hq : q < g) (hne : q ≠ j) (hi : i < k) :
    ¬ GroupWrites k n d p stride q (p + j * k + i) := by
  rintro (⟨i', hi', heq⟩ | ⟨hlo, hhi⟩)
  · exact hapart i' hi' (j * k + i) q (group_byte_lt hj hi) hq (by omega)
  · rcases Nat.lt_or_gt_of_ne hne with hlt | hlt
    · have hle : (q + 1) * k ≤ j * k := Nat.mul_le_mul_right k hlt
      rw [Nat.succ_mul] at hle
      omega
    · have hlt := group_byte_lt hlt hi
      omega

/-- Pixel j of a shadow is written by group j alone. -/
theorem not_groupWrites_pixel (hstride : g ≤ stride) {j q i : Nat} (hj : j < g) (hq : q < g) (hne : q ≠ j)
    (hi : i < n) : ¬ GroupWrites k n d p stride q (d + i * stride + j) := by
  have hmod {r c : Nat} (hr : r < g) : (c * stride + r) % stride = r := by
    rw [Nat.mul_comm, Nat.mul_add_mod, Nat.mod_eq_of_lt (Nat.lt_of_lt_of_le hr hstride)]
  rintro (⟨i', hi', heq⟩ | ⟨hlo, hhi⟩)
  · have hsum : i' * stride + q = i * stride + j := by omega
    exact hne ((hmod hq).symm.trans ((congrArg (· % stride) hsum).trans (hmod hj)))
  · obtain ⟨c, hc⟩ := Nat.exists_eq_add_of_le hlo
    exact hapart i hi (q * k + c) j (group_byte_lt hq (by omega)) hj (by omega)

variable {m : Nat → Nat → Byte} {out : Nat → List Nat × List Nat × Nat}
  (hstep : ∀ j, j < g → GroupStep k n d p stride j (out j) (m j) (m (j + 1)))
include hstep

omit hapart in
/-- A byte that no group from i up to j writes. -/
theorem read_of_not_groupWrites {b i j : Nat} (hij : i ≤ j) (hj : j ≤ g)
    (h : ∀ q, i ≤ q → q < j → ¬ GroupWrites k n d p stride q b) : m j b = m i b := by
  induction j, hij using Nat.le_induction with
  | base => rfl
  | succ j hij ih =>
    rw [(hstep j hj).other b (h j hij (Nat.lt_succ_self j)), ih (by omega) fun q hlo hhi => h q hlo (by omega)]

/-- Each group is read as it was before the first. -/
theorem groupIn_of_apart {j : Nat} (hj : j < g) : groupIn (m j) (p + j * k) k = groupIn (m 0) (p + j * k) k := by
  refine List.map_congr_left fun i hi => congrArg BitVec.toNat ?_
  exact read_of_not_groupWrites hstep (Nat.zero_le j) (by omega) fun q _ hq =>
    not_groupWrites_source hapart hj (by omega) (by omega) (List.mem_range.mp hi)

/-- The repaired coefficients of each group stand at the end. -/
theorem source_of_apart {j i : Nat} (hj : j < g) (hi : i < k) :
    (m g (p + j * k + i)).toNat = (out j).1.getD i 0 := by
  have hlater : m g (p + j * k + i) = m (j + 1) (p + j * k + i) :=
    read_of_not_groupWrites hstep hj (Nat.le_refl g) fun q hlo hq =>
      not_groupWrites_source hapart hj hq (by omega) hi
  rw [hlater]
  exact (hstep j hj).source i hi fun i' hi' heq => hapart i' hi' (j * k + i) j (group_byte_lt hj hi) hj (by omega)

/-- The values of each group stand at the end. -/
theorem pixel_of_apart (hstride : g ≤ stride) {j i : Nat} (hj : j < g) (hi : i < n) :
    (m g (d + i * stride + j)).toNat = (out j).2.1.getD i 0 := by
  have hlater : m g (d + i * stride + j) = m (j + 1) (d + i * stride + j) :=
    read_of_not_groupWrites hstep hj (Nat.le_refl g) fun q hlo hq =>
      not_groupWrites_pixel hapart hstride hj hq (by omega) hi
  rw [hlater]
  refine (hstep j hj).pixel i hi fun i' hlt _ heq => ?_
  have hmul : i * stride < i' * stride := Nat.mul_lt_mul_of_pos_right hlt (by omega)
  omega

end

/-- Settles O34: the memories after each group, of which no byte is written twice where the ranges are apart. -/
theorem psharebufSharesEachGroup : Obligations.PsharebufSharesEachGroup := by
  intro s hkn hshadows hsource
  have hstep := s.afterGroups_step
  refine ⟨_, exec_of_completesAs (completesAs_of_ok (performPsharebuf_of_legal hkn hshadows hsource)), ?sequence, ?apart⟩
  case sequence =>
    refine ⟨s.memoryAfter, s.groupShare, fun _ => rfl, s.psharebufEnd_readByte,
      fun j _ => ⟨rfl, (hstep j).pixel, fun a hpixel => ⟨?group, ?other⟩⟩, s.psharebufEnd_repairs⟩
    case group =>
      rintro i hi rfl
      exact (hstep j).source i hi hpixel
    case other =>
      intro hout
      refine (hstep j).other a ?_
      rintro (⟨i, hi, heq⟩ | ⟨hlo, hhi⟩)
      · exact hpixel i hi heq
      · omega
  case apart =>
    intro hstride hapart
    have hshare : ∀ j, j < s.arg2.toNat → s.groupShare j =
        share (bytesAt s (s.arg1.toNat + j * s.cfgK.toNat) s.cfgK.toNat) s.cfgN.toNat := fun j hj =>
      congrArg (share · s.cfgN.toNat) (groupIn_of_apart hapart (fun j _ => hstep j) hj)
    have hread : ∀ a, s.psharebufEnd.complete.readByte a = s.memoryAfter s.arg2.toNat a := s.psharebufEnd_readByte
    refine ⟨fun j hj => ?bytes, ?repairs⟩
    case bytes =>
      rw [← hshare j hj]
      refine ⟨fun i hi => ?_, fun i hi => ?_⟩
      · rw [hread, source_of_apart hapart (fun j _ => hstep j) hj hi]
      · rw [hread, pixel_of_apart hapart (fun j _ => hstep j) hstride hj hi]
    case repairs =>
      rw [← Finset.sum_congr rfl fun j hj => congrArg (fun out => out.2.2) (hshare j (Finset.mem_range.mp hj))]
      exact s.psharebufEnd_repairs

end Sys2Proof.Machine
end

section
/-!
PROOFS. The solver (43_vandermonde.md R160 to R163, R167, R168), read in the field ZMod 257. Forward elimination is kept as one
invariant that needs no formula for the entries of a row: after c column passes row q is row q of R160's matrix plus a
combination of the c rows above it, and its entries left of column c are 0. The pivots follow by pairing row q with the
coefficients of (X − x_{q−1})⋯(X − x_{q−c}), which the rows above are paired with to 0; and whatever the reduced rows are paired
with to 0, the rows of R160's matrix are too, so a solution of the reduced system solves the first one.
-/

namespace Sys2Proof.Machine

open Sys2Proof.Statements

/-! ### The field ZMod 257 -/

theorem fact_prime_257 : Fact (Nat.Prime 257) := ⟨by norm_num⟩

theorem cast_mod257 (x : Int) : (mod257 x : ZMod 257) = x := by
  have hnat : ((mod257 x : Nat) : Int) = x % 257 := Int.toNat_of_nonneg (Int.emod_nonneg _ (by omega))
  rw [← Int.cast_natCast, hnat]
  exact ZMod.intCast_mod x 257

theorem cast_fsub (a b : Nat) : (fsub a b : ZMod 257) = a - b := by
  rw [fsub, cast_mod257]
  push_cast
  rfl

theorem cast_fmul (a b : Nat) : (fmul a b : ZMod 257) = a * b := by
  rw [fmul, cast_mod257]
  push_cast
  rfl

theorem cast_fpow (x e : Nat) : (fpow x e : ZMod 257) = (x : ZMod 257) ^ e := by
  rw [fpow, cast_mod257]
  push_cast
  rfl

theorem fsub_le (a b : Nat) : fsub a b ≤ 256 := mod257_le _

theorem fmul_le (a b : Nat) : fmul a b ≤ 256 := mod257_le _

theorem fpow_le (x e : Nat) : fpow x e ≤ 256 := mod257_le _

/-- Canonical numbers are equal when they are the same field element. -/
theorem eq_of_cast_eq {a b : Nat} (ha : a ≤ 256) (hb : b ≤ 256) (h : (a : ZMod 257) = b) : a = b := by
  rw [ZMod.natCast_eq_natCast_iff'] at h
  omega

/-- The ROM inverts every canonical number but 0, in the field. -/
theorem cast_mul_inv {p : Nat} (hne : p ≠ 0) (hle : p ≤ 256) : (p : ZMod 257) * (inv p : ZMod 257) = 1 := by
  rw [← Nat.cast_mul, ← Nat.cast_one, ZMod.natCast_eq_natCast_iff', mul_inv_mod (Nat.pos_of_ne_zero hne) hle]

/-! ### Cells of MAT -/

/-- A k×(k+1) matrix. -/
structure Shaped (k : Nat) (m : List (List Nat)) : Prop where
  rows : m.length = k
  columns : ∀ r, r < k → (m.getD r []).length = k + 1

theorem getD_set_eq_ite {α : Type} {l : List α} {i : Nat} (hi : i < l.length) (v d : α) (j : Nat) :
    (l.set i v).getD j d = if j = i then v else l.getD j d := by
  simp only [List.getD_eq_getElem?_getD]
  by_cases hj : j = i
  · rw [if_pos hj, hj, List.getElem?_set_self hi, Option.getD_some]
  · rw [if_neg hj, List.getElem?_set_ne (Ne.symm hj)]

section
variable {k : Nat} {m : List (List Nat)}

/-- One read after one write. -/
theorem matAt_matPut (h : Shaped k m) {r t : Nat} (hr : r < k) (ht : t ≤ k) (v q u : Nat) :
    matAt (matPut m r t v) q u = if q = r ∧ u = t then v else matAt m q u := by
  have hlen : t < (m.getD r []).length := by rw [h.columns r hr]; omega
  rw [matAt, matPut, getD_set_eq_ite (h.rows.symm ▸ hr)]
  by_cases hq : q = r
  · subst hq
    rw [if_pos rfl, getD_set_eq_ite hlen]
    simp only [true_and, matAt]
  · rw [if_neg hq, if_neg fun hqu => hq hqu.1, matAt]

theorem Shaped.matPut (h : Shaped k m) (r t v : Nat) : Shaped k (matPut m r t v) := by
  refine ⟨by rw [Machine.matPut, List.length_set, h.rows], fun q hq => ?_⟩
  by_cases hr : r < k
  · rw [Machine.matPut, getD_set_eq_ite (h.rows.symm ▸ hr)]
    split_ifs
    · rw [List.length_set, h.columns r hr]
    · exact h.columns q hq
  · rw [Machine.matPut, List.set_eq_of_length_le (by rw [h.rows]; omega)]
    exact h.columns q hq

/-- A loop that writes the cells [c, c+n) of row r one after another, each from cells it has not written yet. -/
theorem forUp_matPut_row {r c n : Nat} {v : Nat → List (List Nat) → Nat} {w : Nat → Nat} (h : Shaped k m) (hr : r < k)
    (hn : c + n ≤ k + 1)
    (hv : ∀ i a, (∀ q t, ¬ (q = r ∧ c ≤ t ∧ t < c + i) → matAt a q t = matAt m q t) → v (c + i) a = w (c + i)) :
    Shaped k (forUp n (fun i a => matPut a r (c + i) (v (c + i) a)) m) ∧
      ∀ q t, matAt (forUp n (fun i a => matPut a r (c + i) (v (c + i) a)) m) q t =
        if q = r ∧ c ≤ t ∧ t < c + n then w t else matAt m q t := by
  refine forUp_induct (fun i a => Shaped k a ∧ ∀ q t, matAt a q t =
    if q = r ∧ c ≤ t ∧ t < c + i then w t else matAt m q t) ⟨h, fun q t => ?start⟩ fun i a hi ha => ?pass
  case start => rw [if_neg (by omega)]
  case pass =>
    obtain ⟨hshape, hcell⟩ := ha
    refine ⟨hshape.matPut _ _ _, fun q t => ?_⟩
    rw [matAt_matPut hshape hr (by omega), hv i a fun q t hqt => (hcell q t).trans (if_neg hqt), hcell]
    by_cases hnew : q = r ∧ t = c + i
    · obtain ⟨rfl, rfl⟩ := hnew
      rw [if_pos ⟨rfl, rfl⟩, if_pos (by omega)]
    · rw [if_neg hnew]
      exact if_congr (by omega) rfl rfl

end

/-! ### R160's matrix -/

section
variable {x y : List Nat} {k j : Nat}

theorem getD_buildMat (hj : j < k) :
    (buildMat x y k).getD j [] = ((List.range k).map fun i => fpow (x.getD j 0) i) ++ [y.getD j 0] := by
  rw [buildMat, List.getD_eq_getElem _ _ (by simpa using hj), List.getElem_map, List.getElem_range]

theorem shaped_buildMat (x y : List Nat) (k : Nat) : Shaped k (buildMat x y k) :=
  ⟨by simp [buildMat], fun r hr => by rw [getD_buildMat hr]; simp⟩

theorem matAt_buildMat (hj : j < k) {t : Nat} (ht : t < k) : matAt (buildMat x y k) j t = fpow (x.getD j 0) t := by
  rw [matAt, getD_buildMat hj, List.getD_append _ _ _ _ (by simpa using ht), List.getD_eq_getElem _ _ (by simpa using ht),
    List.getElem_map, List.getElem_range]

theorem matAt_buildMat_last (hj : j < k) : matAt (buildMat x y k) j k = y.getD j 0 := by
  rw [matAt, getD_buildMat hj, List.getD_append_right _ _ _ _ (by simp)]
  simp

end

/-! ### Pairing a row with a vector -/

/-- Row q of the matrix paired with a vector, in the field: Σ_{t ≤ k} MAT[q][t]·f_t. -/
def rowDot (k : Nat) (m : List (List Nat)) (q : Nat) (f : Nat → ZMod 257) : ZMod 257 :=
  ∑ t ∈ Finset.range (k + 1), (matAt m q t : ZMod 257) * f t

/-- A row of R160's matrix is the row of powers of its point, and its right-hand side. -/
theorem rowDot_buildMat {x y : List Nat} {k j : Nat} (hj : j < k) (f : Nat → ZMod 257) : rowDot k (buildMat x y k) j f =
    ∑ t ∈ Finset.range k, (x.getD j 0 : ZMod 257) ^ t * f t + (y.getD j 0 : ZMod 257) * f k := by
  rw [rowDot, Finset.sum_range_succ, matAt_buildMat_last hj]
  congr 1
  refine Finset.sum_congr rfl fun t ht => ?_
  rw [matAt_buildMat hj (Finset.mem_range.mp ht), cast_fpow]

/-! ### One row of forward elimination -/

/-- MAT[r][t] reduced by column c against the row above (R161). -/
def reducedCell (m : List (List Nat)) (c r t : Nat) : Nat :=
  fsub (matAt m r t) (fmul (matAt m (r - 1) t) (fmul (matAt m r c) (inv (matAt m (r - 1) c))))

/-- Row r of a matrix reduced by column c against the row above it, from column c on; the pivot is not 0. -/
structure RowReduced (k c r : Nat) (m m' : List (List Nat)) : Prop where
  pivot : matAt m (r - 1) c ≠ 0
  shaped : Shaped k m'
  cells : ∀ q t, matAt m' q t = if q = r ∧ c ≤ t ∧ t ≤ k then reducedCell m c r t else matAt m q t

section
variable {k c r : Nat} {m : List (List Nat)}

/-- What R161's row does on a nonzero pivot. -/
theorem eliminateRow_of_pivot (h : Shaped k m) (hpos : 1 ≤ r) (hr : r < k) (hc : c ≤ k) (hp : matAt m (r - 1) c ≠ 0) :
    ∃ m', eliminateRow k c r m = .ok m' ∧ RowReduced k c r m m' := by
  obtain ⟨hshape, hcells⟩ := forUp_matPut_row (n := k + 1 - c) (c := c) (r := r)
    (v := fun t a => fsub (matAt a r t) (fmul (matAt a (r - 1) t) (fmul (matAt m r c) (inv (matAt m (r - 1) c)))))
    (w := reducedCell m c r) h hr (by omega)
    fun i a ha => by rw [ha r _ (by omega), ha (r - 1) _ fun hr' => absurd hr'.1 (Nat.sub_one_lt_of_lt hpos).ne, reducedCell]
  refine ⟨_, if_neg hp, hp, hshape, fun q t => (hcells q t).trans (if_congr ?_ rfl rfl)⟩
  omega

theorem eliminateRow_ok {m' : List (List Nat)} (h : Shaped k m) (hpos : 1 ≤ r) (hr : r < k) (hc : c ≤ k)
    (hm' : eliminateRow k c r m = .ok m') : RowReduced k c r m m' := by
  have hp : matAt m (r - 1) c ≠ 0 := by
    intro hzero
    rw [eliminateRow, hzero] at hm'
    cases hm'
  obtain ⟨m'', hm'', hred⟩ := eliminateRow_of_pivot h hpos hr hc hp
  exact Except.ok.inj (hm''.symm.trans hm') ▸ hred

end

/-! ### One column of forward elimination -/

/-- The rows from lo on reduced by column c, each against the row above as it was before the column (R161). -/
structure ColumnReduced (k c lo : Nat) (m m' : List (List Nat)) : Prop where
  shaped : Shaped k m'
  above : ∀ q t, q < lo → matAt m' q t = matAt m q t
  pivots : ∀ q, lo ≤ q → q < k → matAt m (q - 1) c ≠ 0
  cells : ∀ q t, lo ≤ q → q < k → t ≤ k → matAt m' q t = if c ≤ t then reducedCell m c q t else matAt m q t

section
variable {k c lo : Nat} {m m' m'' : List (List Nat)}

theorem ColumnReduced.init (h : Shaped k m) : ColumnReduced k c k m m :=
  ⟨h, fun _ _ _ => rfl, fun _ hlo hq => absurd hlo (by omega), fun _ _ hlo hq => absurd hlo (by omega)⟩

/-- The next row up is reduced against rows that the column has not reached. -/
theorem ColumnReduced.row (h : ColumnReduced k c (lo + 1) m m') (hpos : 1 ≤ lo)
    (hrow : RowReduced k c lo m' m'') : ColumnReduced k c lo m m'' := by
  have hcell : ∀ t, reducedCell m' c lo t = reducedCell m c lo t := fun t => by
    simp only [reducedCell, h.above lo _ (by omega), h.above (lo - 1) _ (by omega)]
  refine ⟨hrow.shaped, fun q t hq => ?above, fun q hq hk => ?pivots, fun q t hq hk ht => ?cells⟩
  case above => rw [hrow.cells, if_neg (by omega), h.above q t (by omega)]
  case pivots =>
    rcases Nat.eq_or_lt_of_le hq with rfl | hlt
    · rw [← h.above (lo - 1) c (by omega)]
      exact hrow.pivot
    · exact h.pivots q hlt hk
  case cells =>
    rw [hrow.cells]
    rcases Nat.eq_or_lt_of_le hq with rfl | hlt
    · rw [hcell, h.above lo t (by omega)]
      exact if_congr (by omega) rfl rfl
    · rw [if_neg (by omega), h.cells q t hlt hk ht]

/-- A column that answers a matrix has reduced every row below row c. -/
theorem eliminateColumn_ok (h : Shaped k m) (hc : c < k) (hm' : eliminateColumn k c m = .ok m') :
    ColumnReduced k c (c + 1) m m' := by
  have hloop : ColumnReduced k c (k - (k - 1 - c)) m m' :=
    forUpE_induct (fun i a => ColumnReduced k c (k - i) m a) (.init h) (fun i a a' hi ha ha' => by
      rw [show k - i = k - 1 - i + 1 by omega] at ha
      rw [show k - (i + 1) = k - 1 - i by omega]
      exact ha.row (by omega) (eliminateRow_ok ha.shaped (by omega) (by omega) (by omega) ha')) hm'
  rwa [show k - (k - 1 - c) = c + 1 by omega] at hloop

/-- A column with no zero pivot answers a matrix. -/
theorem eliminateColumn_of_pivots (h : Shaped k m) (hc : c < k) (hp : ∀ q, c ≤ q → q < k → matAt m q c ≠ 0) :
    ∃ m', eliminateColumn k c m = .ok m' := by
  obtain ⟨m', hm', -⟩ := forUpE_total (fun i a => ColumnReduced k c (k - i) m a) (n := k - 1 - c)
    (body := fun i a => eliminateRow k c (k - 1 - i) a) (.init h) fun i a hi ha => by
      rw [show k - i = k - 1 - i + 1 by omega] at ha
      rw [show k - (i + 1) = k - 1 - i by omega]
      have hpivot : matAt a (k - 1 - i - 1) c ≠ 0 := by
        rw [ha.above _ _ (by omega)]
        exact hp _ (by omega) (by omega)
      obtain ⟨a', ha', hrow⟩ := eliminateRow_of_pivot ha.shaped (by omega) (by omega) (by omega) hpivot
      exact ⟨a', ha', ha.row (by omega) hrow⟩
  exact ⟨m', hm'⟩

end

/-! ### The invariant of forward elimination -/

/-- After c columns: canonical coefficients, zeros left of column c below the diagonal, and row q paired as row q of R160's
matrix with every vector that the c rows above it are paired with to 0. -/
structure Eliminated (x y : List Nat) (k c : Nat) (m : List (List Nat)) : Prop where
  shaped : Shaped k m
  canonical : ∀ q t, q < k → t < k → matAt m q t ≤ 256
  zeros : ∀ q t, q < k → t < c → t < q → matAt m q t = 0
  rows : ∀ q f, q < k → (∀ i, q - c ≤ i → i < q → rowDot k (buildMat x y k) i f = 0) →
    rowDot k m q f = rowDot k (buildMat x y k) q f

theorem eliminated_buildMat (x y : List Nat) (k : Nat) : Eliminated x y k 0 (buildMat x y k) where
  shaped := shaped_buildMat x y k
  canonical q t hq ht := by
    rw [matAt_buildMat hq ht]
    exact fpow_le _ _
  zeros _ t _ ht := absurd ht (Nat.not_lt_zero t)
  rows _ _ _ _ := rfl

section
variable {x y : List Nat} {k c : Nat} {m m' : List (List Nat)}

/-- The multiple of the row above that cancels column c does so in the field. -/
theorem cast_reducedCell_pivot {q : Nat} (hne : matAt m (q - 1) c ≠ 0) (hle : matAt m (q - 1) c ≤ 256) :
    (reducedCell m c q c : ZMod 257) = 0 := by
  rw [reducedCell, cast_fsub, cast_fmul, cast_fmul]
  linear_combination -(matAt m q c : ZMod 257) * cast_mul_inv hne hle

/-- A reduced row is the row less a multiple of the row above, as a whole: left of column c both are 0. -/
theorem rowDot_of_columnReduced (h : Eliminated x y k c m) (hm' : ColumnReduced k c (c + 1) m m') {q : Nat} (hc : c < q)
    (hq : q < k) (f : Nat → ZMod 257) : rowDot k m' q f =
      rowDot k m q f - (fmul (matAt m q c) (inv (matAt m (q - 1) c)) : ZMod 257) * rowDot k m (q - 1) f := by
  simp only [rowDot, Finset.mul_sum, ← Finset.sum_sub_distrib]
  refine Finset.sum_congr rfl fun t ht => ?_
  have htk : t ≤ k := Nat.le_of_lt_succ (Finset.mem_range.mp ht)
  rw [hm'.cells q t hc hq htk]
  split_ifs with hct
  · rw [reducedCell, cast_fsub, cast_fmul]
    ring
  · rw [h.zeros q t hq (by omega) (by omega), h.zeros (q - 1) t (by omega) (by omega) (by omega)]
    simp

/-- One column pass keeps the invariant. -/
theorem Eliminated.column (h : Eliminated x y k c m) (hc : c < k) (hm' : ColumnReduced k c (c + 1) m m') :
    Eliminated x y k (c + 1) m' := by
  refine ⟨hm'.shaped, fun q t hq ht => ?canonical, fun q t hq ht htq => ?zeros, fun q f hq hf => ?rows⟩
  case canonical =>
    by_cases hqc : q < c + 1
    · rw [hm'.above q t hqc]
      exact h.canonical q t hq ht
    · rw [hm'.cells q t (by omega) hq (by omega)]
      split_ifs
      · exact fsub_le _ _
      · exact h.canonical q t hq ht
  case zeros =>
    by_cases hqc : q < c + 1
    · rw [hm'.above q t hqc]
      exact h.zeros q t hq (by omega) htq
    · rw [hm'.cells q t (by omega) hq (by omega)]
      rcases Nat.lt_succ_iff_lt_or_eq.mp ht with hlt | rfl
      · rw [if_neg (by omega)]
        exact h.zeros q t hq hlt htq
      · rw [if_pos (Nat.le_refl t)]
        refine eq_of_cast_eq (fsub_le _ _) (Nat.zero_le _) ?_
        rw [cast_reducedCell_pivot (hm'.pivots q (by omega) hq) (h.canonical _ _ (by omega) (by omega)), Nat.cast_zero]
  case rows =>
    by_cases hqc : q < c + 1
    · have hrow : rowDot k m' q f = rowDot k m q f :=
        Finset.sum_congr rfl fun t _ => by rw [hm'.above q t hqc]
      rw [hrow, h.rows q f hq fun i hi => hf i (by omega)]
    · have habove : rowDot k m (q - 1) f = 0 := by
        rw [h.rows (q - 1) f (by omega) fun i hi hiq => hf i (by omega) (by omega)]
        exact hf (q - 1) (by omega) (by omega)
      rw [rowDot_of_columnReduced h hm' (by omega) hq, habove, mul_zero, sub_zero,
        h.rows q f hq fun i hi => hf i (by omega)]

/-- The column passes of R161, as far as they answer. -/
theorem eliminated_of_columns {mat : List (List Nat)} (hc : c ≤ k)
    (hm : forUpE c (fun c' a => eliminateColumn k c' a) (buildMat x y k) = .ok mat) : Eliminated x y k c mat :=
  forUpE_induct (fun c' a => Eliminated x y k c' a) (eliminated_buildMat x y k)
    (fun _ _ _ hc' ha ha' => ha.column (by omega) (eliminateColumn_ok ha.shaped (by omega) ha')) hm

theorem eliminated_of_forwardEliminate {mat : List (List Nat)} (hm : forwardEliminate k (buildMat x y k) = .ok mat) :
    Eliminated x y k (k - 1) mat :=
  eliminated_of_columns (Nat.sub_le k 1) hm

end

/-! ### The pivots -/

/-- The product of R167: Π_{m=1..c} (x_q − x_{q−m}). -/
def pivotProduct (x : List Nat) (q c : Nat) : ZMod 257 :=
  ∏ m ∈ Finset.Icc 1 c, ((x.getD q 0 : ZMod 257) - (x.getD (q - m) 0 : ZMod 257))

section
open Polynomial

/-- The monic polynomial whose zeros are the d points before x_q. -/
noncomputable def pointsBefore (x : List Nat) (q d : Nat) : (ZMod 257)[X] :=
  ∏ m ∈ Finset.Icc 1 d, (X - C (x.getD (q - m) 0 : ZMod 257))

theorem pointsBefore_monic (x : List Nat) (q d : Nat) : (pointsBefore x q d).Monic := monic_prod_X_sub_C _ _

theorem natDegree_pointsBefore (x : List Nat) (q d : Nat) : (pointsBefore x q d).natDegree = d := by
  have := fact_prime_257
  rw [pointsBefore, natDegree_finsetProd_X_sub_C_eq_card, Nat.card_Icc, Nat.add_sub_cancel]

theorem eval_pointsBefore (x : List Nat) (q d : Nat) (z : ZMod 257) :
    (pointsBefore x q d).eval z = ∏ m ∈ Finset.Icc 1 d, (z - (x.getD (q - m) 0 : ZMod 257)) := by
  simp [pointsBefore, eval_prod]

variable {x y : List Nat} {k q d : Nat}

/-- R160's row of a point, paired with the coefficients of a polynomial of degree below k, is its value at the point. -/
theorem rowDot_buildMat_coeff {j : Nat} (hj : j < k) {f : (ZMod 257)[X]} (hf : f.natDegree < k) :
    rowDot k (buildMat x y k) j f.coeff = f.eval (x.getD j 0 : ZMod 257) := by
  rw [rowDot_buildMat hj, coeff_eq_zero_of_natDegree_lt hf, mul_zero, add_zero, eval_eq_sum_range' hf]
  exact Finset.sum_congr rfl fun t _ => mul_comm _ _

/-- Left of column d the row is 0, and the polynomial has no coefficient past d. -/
theorem rowDot_pointsBefore {m : List (List Nat)} (hd : d ≤ k) (hzero : ∀ t, t < d → matAt m q t = 0) :
    rowDot k m q (pointsBefore x q d).coeff = matAt m q d := by
  have hlead : (pointsBefore x q d).coeff d = 1 := by
    have hmonic := (pointsBefore_monic x q d).coeff_natDegree
    rwa [natDegree_pointsBefore] at hmonic
  rw [rowDot, Finset.sum_eq_single d (fun t _ htd => ?_) fun hd' => absurd (Finset.mem_range.mpr (by omega)) hd', hlead,
    mul_one]
  rcases Nat.lt_or_gt_of_ne htd with hlt | hgt
  · rw [hzero t hlt, Nat.cast_zero, zero_mul]
  · rw [coeff_eq_zero_of_natDegree_lt (by rwa [natDegree_pointsBefore]), mul_zero]

/-- R167: where c columns have been passed, the entry of row q at column c, or on the diagonal if that comes first. -/
theorem Eliminated.pivot {c : Nat} {m : List (List Nat)} (h : Eliminated x y k c m) (hq : q < k) :
    (matAt m q (min c q) : ZMod 257) = pivotProduct x q (min c q) := by
  have hdeg : (pointsBefore x q (min c q)).natDegree < k := by
    rw [natDegree_pointsBefore]
    omega
  have habove : ∀ i, q - c ≤ i → i < q → rowDot k (buildMat x y k) i (pointsBefore x q (min c q)).coeff = 0 := by
    intro i hlo hi
    rw [rowDot_buildMat_coeff (by omega) hdeg, eval_pointsBefore]
    refine Finset.prod_eq_zero (i := q - i) (Finset.mem_Icc.mpr ⟨by omega, by omega⟩) ?_
    rw [show q - (q - i) = i by omega, sub_self]
  calc (matAt m q (min c q) : ZMod 257)
      = rowDot k m q (pointsBefore x q (min c q)).coeff :=
        (rowDot_pointsBefore (by omega) fun t ht => h.zeros q t hq (by omega) (by omega)).symm
    _ = rowDot k (buildMat x y k) q (pointsBefore x q (min c q)).coeff := h.rows q _ hq habove
    _ = pivotProduct x q (min c q) := by rw [rowDot_buildMat_coeff hq hdeg, eval_pointsBefore, pivotProduct]

end

/-- Settles O35: both sorts of pivot are entries of rows under the invariant. -/
theorem pivotsAreProductsOfDifferences : Obligations.PivotsAreProductsOfDifferences := by
  intro x y k
  refine ⟨fun c mat hc hmat q hcq hq => ?columns, fun mat hmat i hi => ?diagonal⟩
  case columns =>
    have hpivot := (eliminated_of_columns (Nat.le_of_lt hc) hmat).pivot hq
    rwa [Nat.min_eq_left hcq] at hpivot
  case diagonal =>
    have hpivot := (eliminated_of_forwardEliminate hmat).pivot hi
    rwa [Nat.min_eq_right (by omega)] at hpivot

end Sys2Proof.Machine
end

section
/-!
PROOFS. The solver on distinct points (43_vandermonde.md R162, R163, R167, R168): no pivot is 0, back-substitution solves the
reduced system from its last row up, and the coefficients it leaves are those of the one polynomial through the points.
-/

namespace Sys2Proof.Machine

open Sys2Proof.Statements

/-! ### No zero pivot on distinct points -/

/-- The k points are distinct field elements (R167). -/
def DistinctPoints (x : List Nat) (k : Nat) : Prop :=
  ∀ i j, i < j → j < k → (x.getD i 0 : ZMod 257) ≠ (x.getD j 0 : ZMod 257)

theorem distinctPoints_of_canonical {x : List Nat} {k : Nat} (hle : ∀ j, j < k → x.getD j 0 ≤ 256)
    (hne : ∀ i j, i < j → j < k → x.getD i 0 ≠ x.getD j 0) : DistinctPoints x k := fun i j hij hj heq =>
  hne i j hij hj (eq_of_cast_eq (hle i (Nat.lt_trans hij hj)) (hle j hj) heq)

section
variable {x y : List Nat} {k c : Nat} {m : List (List Nat)}

/-- A product of differences of distinct points is not 0, for 257 is a prime. -/
theorem pivotProduct_ne_zero (hx : DistinctPoints x k) {q d : Nat} (hq : q < k) (hd : d ≤ q) : pivotProduct x q d ≠ 0 := by
  have := fact_prime_257
  refine Finset.prod_ne_zero_iff.mpr fun m hm => sub_ne_zero.mpr fun heq => ?_
  obtain ⟨hpos, hle⟩ := Finset.mem_Icc.mp hm
  exact hx (q - m) q (by omega) hq heq.symm

theorem Eliminated.pivot_ne_zero (h : Eliminated x y k c m) (hx : DistinctPoints x k) {q : Nat} (hq : q < k) :
    matAt m q (min c q) ≠ 0 := by
  intro hzero
  have hpivot := h.pivot hq
  rw [hzero, Nat.cast_zero] at hpivot
  exact pivotProduct_ne_zero hx hq (Nat.min_le_right c q) hpivot.symm

/-- Forward elimination of distinct points answers a matrix (R167). -/
theorem forwardEliminate_of_distinct (hx : DistinctPoints x k) (y : List Nat) :
    ∃ u, forwardEliminate k (buildMat x y k) = .ok u ∧ Eliminated x y k (k - 1) u := by
  obtain ⟨u, hu, helim⟩ := forUpE_total (fun c a => Eliminated x y k c a) (n := k - 1)
    (body := fun c a => eliminateColumn k c a) (eliminated_buildMat x y k) fun c a hc ha => by
      have hpivots : ∀ q, c ≤ q → q < k → matAt a q c ≠ 0 := fun q hcq hq => by
        have hne := ha.pivot_ne_zero hx hq
        rwa [Nat.min_eq_left hcq] at hne
      obtain ⟨a', ha'⟩ := eliminateColumn_of_pivots ha.shaped (by omega) hpivots
      exact ⟨a', ha', ha.column (by omega) (eliminateColumn_ok ha.shaped (by omega) ha')⟩
  exact ⟨u, hu, helim⟩

end

/-! ### One row of back-substitution -/

/-- Row i scaled to the pivot 1, and column i cleared in the rows above it: what is left of the matrix that is read again, where
column k takes the coefficient of row i and what the rows above have left (R162). -/
structure RowSolved (k i : Nat) (m m' : List (List Nat)) : Prop where
  shaped : Shaped k m'
  coefficient : matAt m' i k = fmul (matAt m i k) (inv (matAt m i i))
  rest : ∀ q, q < i → matAt m' q k = fsub (matAt m q k) (fmul (matAt m' i k) (matAt m q i))
  above : ∀ q t, q < i → t < i → matAt m' q t = matAt m q t
  below : ∀ q t, i < q → matAt m' q t = matAt m q t

section
variable {k i : Nat} {m a : List (List Nat)}

/-- Clearing column i in the first n rows, after a matrix whose row i is scaled. -/
structure Cleared (k i n : Nat) (m m' : List (List Nat)) : Prop where
  shaped : Shaped k m'
  done : ∀ q, q < n → matAt m' q k = fsub (matAt m q k) (fmul (matAt m i k) (matAt m q i))
  others : ∀ q t, (q < n → t ≠ k ∧ t ≠ i) → matAt m' q t = matAt m q t

theorem Cleared.pass {n : Nat} (h : Cleared k i n m a) (hn : n < i) (hi : i < k) :
    Cleared k i (n + 1) m
      (matPut (matPut a n k (fsub (matAt a n k) (fmul (matAt a i k) (matAt a n i)))) n i 0) := by
  have hput := h.shaped.matPut n k (fsub (matAt a n k) (fmul (matAt a i k) (matAt a n i)))
  refine ⟨hput.matPut _ _ _, fun q hq => ?_, fun q t hqt => ?_⟩ <;>
    rw [matAt_matPut hput (by omega) (by omega), matAt_matPut h.shaped (by omega) (by omega)]
  · rw [if_neg (by omega)]
    rcases Nat.lt_succ_iff_lt_or_eq.mp hq with hlt | rfl
    · rw [if_neg (by omega), h.done q hlt]
    · rw [if_pos ⟨rfl, rfl⟩, h.others q k (by omega), h.others i k (by omega), h.others q i (by omega)]
  · rw [if_neg (by omega), if_neg (by omega), h.others q t (by omega)]

/-- What R162's row does on a nonzero pivot. -/
theorem backRow_of_pivot (h : Shaped k m) (hi : i < k) (hp : matAt m i i ≠ 0) :
    ∃ m', backRow k i m = .ok m' ∧ RowSolved k i m m' := by
  obtain ⟨hshape, hcells⟩ := forUp_matPut_row (n := k + 1) (c := 0) (r := i)
    (v := fun t a => fmul (matAt a i t) (inv (matAt m i i))) (w := fun t => fmul (matAt m i t) (inv (matAt m i i))) h hi
    (by omega) fun j a ha => congrArg (fmul · _) (ha i _ (by omega))
  simp only [Nat.zero_add] at hshape hcells
  have hcleared := forUp_induct (n := i) (fun n a => Cleared k i n _ a)
    ⟨hshape, fun _ hq => absurd hq (Nat.not_lt_zero _), fun _ _ _ => rfl⟩ fun n a hn ha => ha.pass hn hi
  refine ⟨_, if_neg hp, hcleared.shaped, ?coefficient, fun q hq => ?rest, fun q t hq ht => ?above, fun q t hq => ?below⟩
  case coefficient => rw [hcleared.others i k (by omega), hcells, if_pos (by omega)]
  case rest =>
    rw [hcleared.done q hq, hcleared.others i k (by omega), hcells q k, hcells q i, if_neg (by omega), if_neg (by omega)]
  case above => rw [hcleared.others q t (by omega), hcells, if_neg (by omega)]
  case below => rw [hcleared.others q t (by omega), hcells, if_neg (by omega)]

end

/-! ### The invariant of back-substitution -/

/-- A reduced matrix u with the rows from n on solved: column k of these holds coefficients that solve them, and in the rows
above column k holds what the coefficients found so far leave of the right-hand side. -/
structure BackSolved (u : List (List Nat)) (k n : Nat) (m : List (List Nat)) : Prop where
  shaped : Shaped k m
  kept : ∀ q t, q < n → t < n → matAt m q t = matAt u q t
  canonical : ∀ q, n < k → q < k → matAt m q k ≤ 256
  rest : ∀ q, q < n →
    (matAt m q k : ZMod 257) + ∑ t ∈ Finset.Ico n k, (matAt u q t : ZMod 257) * matAt m t k = matAt u q k
  solved : ∀ q, n ≤ q → q < k → ∑ t ∈ Finset.Ico q k, (matAt u q t : ZMod 257) * matAt m t k = matAt u q k

theorem BackSolved.init {u : List (List Nat)} {k : Nat} (h : Shaped k u) : BackSolved u k k u :=
  ⟨h, fun _ _ _ _ => rfl, fun _ hk => absurd hk (Nat.lt_irrefl k), fun q _ => by simp,
    fun q hk hq => absurd hk (Nat.not_le.mpr hq)⟩

/-- The next row up is solved by the rows below it. -/
theorem BackSolved.row {u m m' : List (List Nat)} {k n : Nat} (h : BackSolved u k (n + 1) m) (hn : n < k)
    (hne : matAt u n n ≠ 0) (hle : matAt u n n ≤ 256) (hm' : RowSolved k n m m') : BackSolved u k n m' := by
  have hbelow : ∀ q j, n < j → ∑ t ∈ Finset.Ico j k, (matAt u q t : ZMod 257) * matAt m' t k =
      ∑ t ∈ Finset.Ico j k, (matAt u q t : ZMod 257) * matAt m t k := fun q j hj =>
    Finset.sum_congr rfl fun t ht => by rw [hm'.below t k (by have := Finset.mem_Ico.mp ht; omega)]
  refine ⟨hm'.shaped, fun q t hq ht => ?kept, fun q hk hq => ?canonical, fun q hq => ?rest, fun q hq hk => ?solved⟩
  case kept => rw [hm'.above q t hq ht, h.kept q t (by omega) (by omega)]
  case canonical =>
    rcases Nat.lt_trichotomy q n with hlt | rfl | hgt
    · rw [hm'.rest q hlt]
      exact fsub_le _ _
    · rw [hm'.coefficient]
      exact fmul_le _ _
    · rw [hm'.below q k hgt]
      exact h.canonical q (by omega) hq
  case rest =>
    rw [Finset.sum_eq_sum_Ico_succ_bot hn, hbelow q (n + 1) (Nat.lt_succ_self n), hm'.rest q hq, cast_fsub, cast_fmul,
      h.kept q n (by omega) (by omega), ← h.rest q (by omega)]
    ring
  case solved =>
    rcases Nat.eq_or_lt_of_le hq with rfl | hlt
    · rw [Finset.sum_eq_sum_Ico_succ_bot hn, hbelow n (n + 1) (Nat.lt_succ_self n), hm'.coefficient, cast_fmul,
        h.kept n n (by omega) (by omega), ← h.rest n (Nat.lt_succ_self n)]
      linear_combination (matAt m n k : ZMod 257) * cast_mul_inv hne hle
    · rw [hbelow q q hlt, h.solved q hlt hk]

/-- Back-substitution of a matrix without a zero on the diagonal solves all rows but row 0. -/
theorem backSubstitute_of_pivots {u : List (List Nat)} {k : Nat} (h : Shaped k u) (hne : ∀ i, i < k → matAt u i i ≠ 0)
    (hle : ∀ i, i < k → matAt u i i ≤ 256) : ∃ m, backSubstitute k u = .ok m ∧ BackSolved u k (k - (k - 1)) m :=
  forUpE_total (fun d a => BackSolved u k (k - d) a) (.init h) fun d a hd ha => by
    rw [show k - d = k - 1 - d + 1 by omega] at ha
    rw [show k - (d + 1) = k - 1 - d by omega]
    have hpivot : matAt a (k - 1 - d) (k - 1 - d) ≠ 0 := by
      rw [ha.kept _ _ (by omega) (by omega)]
      exact hne _ (by omega)
    obtain ⟨a', ha', hsolved⟩ := backRow_of_pivot ha.shaped (by omega) hpivot
    exact ⟨a', ha', ha.row (by omega) (hne _ (by omega)) (hle _ (by omega)) hsolved⟩

/-! ### The solver -/

section
variable {x y : List Nat} {k : Nat} {u m : List (List Nat)}

/-- solve on distinct points is both parts of the elimination (R163, R167). -/
theorem solve_of_distinct (hx : DistinctPoints x k) (y : List Nat) :
    ∃ u m, solve x y k = .ok ((List.range k).map fun i => matAt m i k) ∧ Eliminated x y k (k - 1) u ∧
      BackSolved u k (k - (k - 1)) m := by
  obtain ⟨u, hu, helim⟩ := forwardEliminate_of_distinct hx y
  have hne : ∀ i, i < k → matAt u i i ≠ 0 := fun i hi => by
    have hpivot := helim.pivot_ne_zero hx hi
    rwa [Nat.min_eq_right (by omega)] at hpivot
  obtain ⟨m, hm, hback⟩ := backSubstitute_of_pivots helim.shaped hne fun i hi => helim.canonical i i hi hi
  refine ⟨u, m, ?_, helim, hback⟩
  rw [solve, hu, Except.bind_of_ok, hm, Except.bind_of_ok]
  rfl

/-- Column k at the end, with the −1 that brings the right-hand side over. -/
def solutionVector (k : Nat) (m : List (List Nat)) (t : Nat) : ZMod 257 := if t < k then matAt m t k else -1

theorem rowDot_solutionVector (n : List (List Nat)) (q : Nat) : rowDot k n q (solutionVector k m) =
    ∑ t ∈ Finset.range k, (matAt n q t : ZMod 257) * matAt m t k - matAt n q k := by
  rw [rowDot, Finset.sum_range_succ, solutionVector, if_neg (Nat.lt_irrefl k), mul_neg_one, ← sub_eq_add_neg]
  congr 1
  exact Finset.sum_congr rfl fun t ht => by rw [solutionVector, if_pos (Finset.mem_range.mp ht)]

/-- The coefficients solve every reduced row: row 0 needs no scaling, for its pivot is the empty product 1. -/
theorem rowDot_eliminated_solution (helim : Eliminated x y k (k - 1) u) (hback : BackSolved u k (k - (k - 1)) m) {q : Nat}
    (hq : q < k) : rowDot k u q (solutionVector k m) = 0 := by
  rw [show k - (k - 1) = 1 by omega] at hback
  rw [rowDot_solutionVector, sub_eq_zero, Finset.range_eq_Ico]
  cases q with
  | zero =>
    have hone : (matAt u 0 0 : ZMod 257) = 1 := by simpa [pivotProduct] using helim.pivot hq
    rw [Finset.sum_eq_sum_Ico_succ_bot hq, hone, one_mul]
    exact hback.rest 0 Nat.one_pos
  | succ q =>
    rw [← hback.solved (q + 1) (by omega) hq, ← Finset.sum_Ico_consecutive _ (Nat.zero_le (q + 1)) (Nat.le_of_lt hq),
      Finset.sum_eq_zero fun t ht => ?_, zero_add]
    have hlt := (Finset.mem_Ico.mp ht).2
    rw [helim.zeros (q + 1) t hq (by omega) hlt, Nat.cast_zero, zero_mul]

/-- What solves the reduced rows solves R160's rows, from row 0 down (R168). -/
theorem Eliminated.rowDot_buildMat_eq_zero {c : Nat} (h : Eliminated x y k c u) {f : Nat → ZMod 257}
    (hf : ∀ q, q < k → rowDot k u q f = 0) {q : Nat} (hq : q < k) : rowDot k (buildMat x y k) q f = 0 := by
  induction q using Nat.strong_induction_on with
  | _ q ih => rw [← h.rows q f hq fun i _ hi => ih i hi (by omega), hf q hq]

end

theorem cast_poly (c : List Nat) (z : Nat) :
    (poly c z : ZMod 257) = ∑ t ∈ Finset.range c.length, (z : ZMod 257) ^ t * (c.getD t 0 : ZMod 257) := by
  rw [poly, ZMod.natCast_mod, Nat.cast_sum]
  exact Finset.sum_congr rfl fun t _ => by push_cast; rw [mul_comm]

/-- The k numbers are coefficients of a polynomial through the k points, canonical ones (R168). -/
structure Interpolates (x y : List Nat) (k : Nat) (a : List Nat) : Prop where
  length : a.length = k
  canonical : ∀ v ∈ a, v ≤ 256
  values : ∀ j, j < k → (poly a (x.getD j 0) : ZMod 257) = (y.getD j 0 : ZMod 257)

theorem getD_map_range (g : Nat → Nat) {k t : Nat} (ht : t < k) : ((List.range k).map g).getD t 0 = g t := by
  rw [List.getD_eq_getElem _ _ (by simpa using ht), List.getElem_map, List.getElem_range]

/-- On distinct points the solver answers coefficients of the polynomial through them (R167, R168). -/
theorem solve_interpolates {x : List Nat} {k : Nat} (hx : DistinctPoints x k) (hk : 2 ≤ k) (y : List Nat) :
    ∃ a, solve x y k = .ok a ∧ Interpolates x y k a := by
  obtain ⟨u, m, hsolve, helim, hback⟩ := solve_of_distinct hx y
  refine ⟨_, hsolve, by simp, fun v hv => ?canonical, fun j hj => ?values⟩
  case canonical =>
    obtain ⟨i, hi, rfl⟩ := List.mem_map.mp hv
    exact hback.canonical i (by omega) (List.mem_range.mp hi)
  case values =>
    have hrow := helim.rowDot_buildMat_eq_zero (fun q hq => rowDot_eliminated_solution helim hback hq) hj
    rw [rowDot_solutionVector, sub_eq_zero, matAt_buildMat_last hj] at hrow
    rw [← hrow, cast_poly, List.length_map, List.length_range]
    refine Finset.sum_congr rfl fun t ht => ?_
    have htk := Finset.mem_range.mp ht
    rw [getD_map_range _ htk, matAt_buildMat hj htk, cast_fpow]

/-- Settles O36: the pivots are products of differences of distinct points, of which none is 0. -/
theorem solverMeetsNoZeroPivot : Obligations.SolverMeetsNoZeroPivot := by
  intro x y k hle hne
  obtain ⟨u, m, hsolve, -, -⟩ := solve_of_distinct (distinctPoints_of_canonical hle hne) y
  exact ⟨_, hsolve, by simp⟩

/-- Canonical coefficients of the polynomial through k distinct points are unique (R168): Vandermonde's determinant. -/
theorem Interpolates.unique {x y a b : List Nat} {k : Nat} (hx : DistinctPoints x k) (ha : Interpolates x y k a)
    (hb : Interpolates x y k b) : a = b := by
  have := fact_prime_257
  have hinj : Function.Injective fun j : Fin k => (x.getD j 0 : ZMod 257) := by
    intro i j hij
    rcases lt_trichotomy i j with hlt | heq | hgt
    · exact absurd hij (hx i j hlt j.isLt)
    · exact heq
    · exact absurd hij.symm (hx j i hgt i.isLt)
  have hzero := Matrix.eq_zero_of_forall_index_sum_pow_mul_eq_zero hinj
    (v := fun t : Fin k => (a.getD t 0 : ZMod 257) - (b.getD t 0 : ZMod 257)) fun j => by
      have hval := (ha.values j j.isLt).trans (hb.values j j.isLt).symm
      rw [cast_poly, cast_poly, ha.length, hb.length, ← sub_eq_zero, ← Finset.sum_sub_distrib] at hval
      simp only [mul_sub]
      rwa [Fin.sum_univ_eq_sum_range fun t => (x.getD j 0 : ZMod 257) ^ t * (a.getD t 0 : ZMod 257) -
        (x.getD j 0 : ZMod 257) ^ t * (b.getD t 0 : ZMod 257)]
  refine List.ext_getElem (ha.length.trans hb.length.symm) fun t hta htb => ?_
  have hcast := sub_eq_zero.mp (congrFun hzero ⟨t, ha.length ▸ hta⟩)
  have heq := eq_of_cast_eq (getD_le_of_forall_le ha.canonical t) (getD_le_of_forall_le hb.canonical t) hcast
  rwa [List.getD_eq_getElem _ _ hta, List.getD_eq_getElem _ _ htb] at heq

end Sys2Proof.Machine
end

section
/-!
PROOFS. The point check that VSOLVE and VRECON share (43_vandermonde.md R164), VSOLVE (R165), and its round trip with PSHARE
(R168): checked points are distinct field elements, so the solver answers whatever the right-hand sides are.
-/

namespace Sys2Proof.Machine

open Sys2Proof.Statements

/-! ### The point check -/

theorem badPoint_eq_true_iff {s : State} {j : Nat} : badPoint s j = true ↔ BadPoint s j := badPoint_iff

/-- What a solver command does with CFG.K and the points it has checked (R164). -/
def withPoints (body : Nat → List Nat → Except EngineError State) (s : State) : Except EngineError State := do
  let k ← thresholdOperand s
  let x ← pointsOperand s k
  body k x

section
variable {s : State} {body : Nat → List Nat → Except EngineError State}

theorem withPoints_of_bad_k (h : ¬ LegalK s) : withPoints body s = .error ⟨.invalidArgument, Offset.cfg⟩ := by
  rw [withPoints, thresholdOperand_of_illegal (by rw [LegalK] at h; omega), Except.bind_of_error]

theorem withPoints_of_bad_point (h : LegalK s) {j : Nat} (hj : j < s.cfgK.toNat) (hbad : BadPoint s j)
    (hgood : ∀ i, i < j → ¬ BadPoint s i) : withPoints body s = .error ⟨.malformedShadow, Offset.xtab j⟩ := by
  obtain ⟨hmin, hmax⟩ := h
  rw [withPoints, thresholdOperand_of_legal hmin hmax, Except.bind_of_ok,
    pointsOperand_of_first hj (badPoint_eq_true_iff.mpr hbad) fun i hi =>
      Bool.eq_false_iff.mpr fun hi' => hgood i hi (badPoint_eq_true_iff.mp hi'), Except.bind_of_error]

theorem withPoints_of_good (h : LegalK s) (hgood : GoodPoints s s.cfgK.toNat) :
    withPoints body s = body s.cfgK.toNat (points s s.cfgK.toNat) := by
  obtain ⟨hmin, hmax⟩ := h
  have hpoints := pointsOperand_of_all (fun j hj hzero => hgood j hj (.inl hzero)) fun i j hij hj heq =>
    hgood j hj (.inr ⟨i, hij, heq⟩)
  rw [withPoints, thresholdOperand_of_legal hmin hmax, Except.bind_of_ok, hpoints, Except.bind_of_ok, points]

end

theorem getD_points (s : State) {k j : Nat} (hj : j < k) : (points s k).getD j 0 = (s.xEntry j).toNat :=
  getD_map_range _ hj

/-- Points that pass the check are distinct bytes, so distinct field elements (R167). -/
theorem distinctPoints_of_goodPoints {s : State} {k : Nat} (h : GoodPoints s k) : DistinctPoints (points s k) k := by
  refine distinctPoints_of_canonical (fun j hj => ?canonical) fun i j hij hj heq => ?distinct
  case canonical =>
    rw [getD_points s hj]
    exact Nat.le_of_lt (s.xEntry j).isLt
  case distinct =>
    rw [getD_points s hj, getD_points s (Nat.lt_trans hij hj)] at heq
    exact h j hj (.inr ⟨i, hij, BitVec.eq_of_toNat_eq heq⟩)

/-- Through a canonical value the polynomial goes as a number. -/
theorem Interpolates.poly_eq {x y a : List Nat} {k j : Nat} (h : Interpolates x y k a) (hj : j < k)
    (hy : y.getD j 0 ≤ 256) : poly a (x.getD j 0) = y.getD j 0 :=
  eq_of_cast_eq (poly_le _ _) hy (h.values j hj)

/-! ### VSOLVE -/

/-- YTAB[0..k) as numbers. -/
def rightSides (s : State) (k : Nat) : List Nat := (List.range k).map fun j => (s.yEntry j).toNat

theorem getD_rightSides (s : State) {k j : Nat} (hj : j < k) : (rightSides s k).getD j 0 = (s.yEntry j).toNat :=
  getD_map_range _ hj

/-- VSOLVE after the point check (R165). -/
def solveTables (s : State) (k : Nat) (x : List Nat) : Except EngineError State := do
  let y ← rightSideOperand s k
  let a ← solveOperand x y k
  pure (s.storeCoefs k a)

theorem performVsolve_eq_withPoints (s : State) : performInstr .vsolve s = withPoints (solveTables s) s := rfl

section
variable {s : State} {k : Nat}

theorem solveTables_of_first {x : List Nat} {j : Nat} (hj : j < k) (hbad : 256 < (s.yEntry j).toNat)
    (hgood : ∀ i, i < j → (s.yEntry i).toNat ≤ 256) :
    solveTables s k x = .error ⟨.invalidArgument, Offset.ytab j⟩ := by
  have hright : rightSideOperand s k = .error ⟨.invalidArgument, Offset.ytab j⟩ :=
    entriesOperand_of_first hj (decide_eq_false (Nat.not_le.mpr hbad)) fun i hi => decide_eq_true (hgood i hi)
  rw [solveTables, hright, Except.bind_of_error]

theorem rightSideOperand_of_all (h : ∀ j, j < k → (s.yEntry j).toNat ≤ 256) :
    rightSideOperand s k = .ok (rightSides s k) :=
  entriesOperand_of_all fun j hj => decide_eq_true (h j hj)

/-- VSOLVE on checked points and canonical values stores the polynomial through them (R165). -/
theorem performVsolve_of_legal (h : LegalK s) (hgood : GoodPoints s s.cfgK.toNat)
    (hy : ∀ j, j < s.cfgK.toNat → (s.yEntry j).toNat ≤ 256) :
    ∃ a, performInstr .vsolve s = .ok (s.storeCoefs s.cfgK.toNat a) ∧
      Interpolates (points s s.cfgK.toNat) (rightSides s s.cfgK.toNat) s.cfgK.toNat a := by
  obtain ⟨a, ha, hinter⟩ := solve_interpolates (distinctPoints_of_goodPoints hgood) h.1 (rightSides s s.cfgK.toNat)
  refine ⟨a, ?_, hinter⟩
  rw [performVsolve_eq_withPoints, withPoints_of_good h hgood, solveTables, rightSideOperand_of_all hy, Except.bind_of_ok,
    solveOperand, ha]
  rfl

end

/-- A stored canonical coefficient, 256 too, is read back (R165). -/
theorem State.toNat_coefEntry_storeCoefs (s : State) {k i : Nat} {a : List Nat} (ha : ∀ v ∈ a, v ≤ 256) (hi : i < k) :
    ((s.storeCoefs k a).coefEntry i).toNat = a.getD i 0 := by
  have hle := getD_le_of_forall_le ha i
  rw [State.coefEntry_storeCoefs, if_pos hi, BitVec.toNat_ofNat]
  exact Nat.mod_eq_of_lt (by omega)

theorem coefs_storeCoefs (s : State) {k : Nat} {a : List Nat} (hlen : a.length = k) (ha : ∀ v ∈ a, v ≤ 256) :
    coefs (s.storeCoefs k a) k = a := by
  refine List.ext_getElem (by simp [coefs, hlen]) fun i _ hi => ?_
  rw [← List.getD_eq_getElem a 0 hi, ← s.toNat_coefEntry_storeCoefs ha (hlen ▸ hi)]
  simp [coefs]

/-- Settles O37: the checks one after another, then the solver's polynomial in COEF. -/
theorem vsolveInterpolates : Obligations.VsolveInterpolates := by
  refine ⟨decode_encode .vsolve, fun s => ⟨fun hk => endsWith_of_error (withPoints_of_bad_k hk),
    fun hk j hj hbad hfirst => endsWith_of_error (withPoints_of_bad_point hk hj hbad hfirst),
    fun hk hgood j hj hbad hfirst => endsWith_of_error ?value, fun hk hgood hy => ?solution⟩⟩
  case value => exact (withPoints_of_good hk hgood).trans (solveTables_of_first hj hbad hfirst)
  case solution =>
    obtain ⟨a, hperform, hinter⟩ := performVsolve_of_legal hk hgood hy
    refine ⟨_, completesAs_of_ok hperform, s.storeCoefs_eq _ _, fun j hj => ?_, fun i hi => ?_, fun j hj => ?_⟩
    · rw [State.coefEntry_storeCoefs, if_neg (Nat.not_lt.mpr hj)]
    · rw [s.toNat_coefEntry_storeCoefs hinter.canonical hi]
      exact getD_le_of_forall_le hinter.canonical i
    · have hpoly := hinter.poly_eq hj (by rw [getD_rightSides s hj]; exact hy j hj)
      rwa [getD_points s hj, getD_rightSides s hj, ← coefs_storeCoefs s hinter.length hinter.canonical] at hpoly

/-! ### The round trip -/

theorem length_repairs (r : Nat) (c : List Nat) : (repairOnce^[r] c).length = c.length := by
  induction r with
  | zero => rfl
  | succ r ih => rw [Function.iterate_succ_apply', length_repairOnce, ih]

/-- What PSHARE leaves for repaired coefficients c: c in COEF[0..k), and its values, which are bytes, in YTAB[0..n) (R143). -/
structure SharedAs (k n : Nat) (c : List Nat) (t : State) : Prop where
  length : c.length = k
  bytes : ∀ v ∈ c, v ≤ 255
  coefs : ∀ j, j < k → (t.coefEntry j).toNat = c.getD j 0
  values : ∀ i, 1 ≤ i → i ≤ n → (t.yEntry (i - 1)).toNat = poly c i ∧ poly c i ≤ 255

theorem exec_pshare_sharedAs {s t : State} (h : LegalKN s) (hc : ∀ j, j < s.cfgK.toNat → (s.coefEntry j).toNat ≤ 255)
    (ht : exec .pshare s = .next t) : ∃ c, SharedAs s.cfgK.toNat s.cfgN.toNat c t := by
  obtain ⟨-, hpshare⟩ := pshareRepairsAndShares
  obtain ⟨-, -, hlegal⟩ := hpshare s
  obtain ⟨u, r, hu, -, hbytes, hcoefs, -, hvalues, -, -⟩ := hlegal h hc
  obtain rfl := Host.Outcome.next.inj ((exec_of_completesAs hu).symm.trans ht)
  refine ⟨_, by rw [length_repairs]; simp [coefs], repairs_le (coefs_le hc) r, hcoefs, fun i hpos hi =>
    ⟨?_, hbytes i hpos hi⟩⟩
  have hvalue := hvalues (i - 1) (by omega)
  rwa [Nat.sub_add_cancel hpos] at hvalue

section
variable {t u : State} {k n : Nat} {c : List Nat} {idx : Nat → Nat} (hshared : SharedAs k n c t)
  (hrange : ∀ j, j < k → 1 ≤ idx j ∧ idx j ≤ n)
  (htables : ∀ j, j < k → u.xEntry j = BitVec.ofNat 8 (idx j) ∧ u.yEntry j = t.yEntry (idx j - 1))
include hrange htables

/-- The index of a share is a point. -/
theorem toNat_xEntry_of_index (hn : n ≤ 255) {j : Nat} (hj : j < k) : (u.xEntry j).toNat = idx j := by
  have hle := (hrange j hj).2
  rw [(htables j hj).1, toNat_ofNat_of_byte (Nat.le_refl 8) (by omega)]

/-- Distinct indices of shares pass the point check, for none of them is 0. -/
theorem goodPoints_of_indices (hn : n ≤ 255) (hne : ∀ i j, i < j → j < k → idx i ≠ idx j) : GoodPoints u k := by
  have hx := fun j hj => toNat_xEntry_of_index hrange htables hn (j := j) hj
  rintro j hj (hzero | ⟨i, hij, heq⟩)
  · have hpos := (hrange j hj).1
    rw [← hx j hj, hzero] at hpos
    exact absurd hpos (by decide)
  · exact hne i j hij hj ((hx i (Nat.lt_trans hij hj)).symm.trans ((congrArg BitVec.toNat heq).trans (hx j hj)))

include hshared

theorem yEntry_of_index {j : Nat} (hj : j < k) : (u.yEntry j).toNat = poly c (idx j) ∧ poly c (idx j) ≤ 255 := by
  obtain ⟨hpos, hle⟩ := hrange j hj
  rw [(htables j hj).2]
  exact hshared.values (idx j) hpos hle

/-- The shared polynomial goes through the shares. -/
theorem interpolates_of_shares (hn : n ≤ 255) : Interpolates (points u k) (rightSides u k) k c where
  length := hshared.length
  canonical v hv := Nat.le_succ_of_le (hshared.bytes v hv)
  values j hj := by
    rw [getD_points u hj, getD_rightSides u hj, toNat_xEntry_of_index hrange htables hn hj,
      (yEntry_of_index hshared hrange htables hj).1]

end

/-- Settles O38: the repaired coefficients go through the shares, and the polynomial through them is unique. -/
theorem vsolveRecoversWhatPshareShared : Obligations.VsolveRecoversWhatPshareShared := by
  intro s t u idx hkn hc ht hk hparams hrange hne htables
  obtain ⟨c, hshared⟩ := exec_pshare_sharedAs hkn hc ht
  have hn : s.cfgN.toNat ≤ 255 := Nat.le_of_lt_succ s.cfgN.isLt
  have hlegal : LegalK u := by
    rw [LegalK, hk, hparams]
    exact hkn.1
  have hgood := goodPoints_of_indices hrange htables hn hne
  have hinter := interpolates_of_shares hshared hrange htables hn
  rw [← hk] at hgood hinter
  obtain ⟨a, hperform, ha⟩ := performVsolve_of_legal hlegal hgood fun j hj => by
    obtain ⟨hvalue, hle⟩ := yEntry_of_index hshared hrange htables (hk ▸ hj)
    omega
  obtain rfl := ha.unique (distinctPoints_of_goodPoints hgood) hinter
  refine ⟨_, exec_of_completesAs (completesAs_of_ok hperform), ?_, fun j hj => BitVec.eq_of_toNat_eq ?_⟩
  · rw [State.storeCoefs_eq]
    rfl
  · rw [hshared.coefs j hj]
    exact u.toNat_coefEntry_storeCoefs ha.canonical (hk ▸ hj)

end Sys2Proof.Machine
end

section
/-!
PROOFS. VRECON (43_vandermonde.md R166 to R168, 70_reset_and_hazards.md R258): on checked points no group raises an error, so the
command is a sequence of memories, one per group, of which each differs from the one before in its group's k output bytes.
-/

namespace Sys2Proof.Machine

open Sys2Proof.Statements

/-! ### The checks of VRECON -/

/-- VRECON after its checks: one group after another, then WRAP (R166). -/
def reconGroups (s : State) (k : Nat) (x : List Nat) : Except EngineError State := do
  let z ← forUpE s.arg2.toNat (reconPass x k s.arg0.toNat s.arg1.toNat s.arg3.toNat) (s, false)
  pure (z.1.flagWrap z.2)

/-- VRECON after the point check: the output range, then the rows (R166). -/
def reconRanges (s : State) (k : Nat) (x : List Nat) : Except EngineError State := do
  rangeOperand s s.arg0.toNat (s.arg2.toNat * k) Offset.arg0
  stridedOperand s k s.arg1.toNat s.arg3.toNat s.arg2.toNat Offset.arg1
  reconGroups s k x

theorem performVrecon_eq_withPoints (s : State) : performInstr .vrecon s = withPoints (reconRanges s) s := rfl

section
variable {s : State} {k : Nat} {x : List Nat}

theorem reconRanges_of_output_outside (h : ¬ InDmem s s.arg0.toNat (s.arg2.toNat * k)) :
    reconRanges s k x = .error ⟨.addressError, Offset.arg0⟩ := by
  rw [reconRanges, rangeOperand_of_outside (State.inRange_eq_false_iff.mpr h), Except.bind_of_error]

theorem reconRanges_of_row_outside {j : Nat} (hout : InDmem s s.arg0.toNat (s.arg2.toNat * k)) (hj : j < k)
    (h : ¬ InDmem s (s.arg1.toNat + j * s.arg3.toNat) s.arg2.toNat) :
    reconRanges s k x = .error ⟨.addressError, Offset.arg1⟩ := by
  rw [reconRanges, rangeOperand_of_inRange (State.inRange_iff.mpr hout), Except.bind_of_ok,
    stridedOperand_of_outside hj (State.inRange_eq_false_iff.mpr h), Except.bind_of_error]

theorem reconRanges_of_inRange (hout : InDmem s s.arg0.toNat (s.arg2.toNat * k))
    (hrows : ∀ j, j < k → InDmem s (s.arg1.toNat + j * s.arg3.toNat) s.arg2.toNat) :
    reconRanges s k x = reconGroups s k x := by
  rw [reconRanges, rangeOperand_of_inRange (State.inRange_iff.mpr hout), Except.bind_of_ok,
    stridedOperand_of_inRange fun j hj => State.inRange_iff.mpr (hrows j hj), Except.bind_of_ok]

end

/-! ### The groups of VRECON -/

/-- The coefficients solve answers; on distinct points it always answers (solveOperand_eq_solution). -/
def solution (x y : List Nat) (k : Nat) : List Nat :=
  match solve x y k with
  | .ok a => a
  | .error _ => []

section
variable {x : List Nat} {k : Nat}

theorem solution_interpolates (hx : DistinctPoints x k) (hk : 2 ≤ k) (y : List Nat) :
    Interpolates x y k (solution x y k) := by
  obtain ⟨a, ha, hinter⟩ := solve_interpolates hx hk y
  rwa [solution, ha]

theorem solveOperand_eq_solution (hx : DistinctPoints x k) (hk : 2 ≤ k) (y : List Nat) :
    solveOperand x y k = .ok (solution x y k) := by
  obtain ⟨a, ha, -⟩ := solve_interpolates hx hk y
  rw [solveOperand, solution, ha]

end

/-- Pixel p of each of the k rows in a memory given by its reads (R166). -/
def rowPixels (m : Nat → Byte) (b stride k p : Nat) : List Nat :=
  (List.range k).map fun j => (m (b + j * stride + p)).toNat

theorem getD_rowPixels (m : Nat → Byte) (b stride p : Nat) {k j : Nat} (hj : j < k) :
    (rowPixels m b stride k p).getD j 0 = (m (b + j * stride + p)).toNat :=
  getD_map_range _ hj

/-- One group of VRECON that raises no error (R166). -/
def solvedPass (x : List Nat) (k o b stride p : Nat) (z : State × Bool) : State × Bool :=
  (z.1.storeStrided (o + p * k) 1 k (solution x (rowPixels z.1.readByte b stride k p) k),
    z.2 || (solution x (rowPixels z.1.readByte b stride k p) k).any fun v => decide (v = 256))

theorem reconPass_of_distinct {x : List Nat} {k : Nat} (hx : DistinctPoints x k) (hk : 2 ≤ k) (o b stride p : Nat)
    (z : State × Bool) : reconPass x k o b stride p z = .ok (solvedPass x k o b stride p z) := by
  have hsolve := solveOperand_eq_solution hx hk (rowPixels z.1.readByte b stride k p)
  rw [rowPixels] at hsolve
  rw [reconPass, hsolve, Except.bind_of_ok]
  rfl

/-- A loop whose passes raise no error is a loop without errors. -/
theorem forUpE_eq_forUp {ε α : Type} {body : Nat → α → Except ε α} {pass : Nat → α → α}
    (h : ∀ i y, body i y = .ok (pass i y)) (n : Nat) (x : α) : forUpE n body x = .ok (forUp n pass x) := by
  induction n with
  | zero => rfl
  | succ n ih => exact forUpE_succ_ok.mpr ⟨_, ih, h n _⟩

/-- The state after the first p groups of VRECON, and whether a coefficient was 256 in them. -/
def State.afterRecon (s : State) (p : Nat) : State × Bool :=
  forUp p (solvedPass (points s s.cfgK.toNat) s.cfgK.toNat s.arg0.toNat s.arg1.toNat s.arg3.toNat) (s, false)

/-- DMEM as the first p groups of VRECON leave it (R258). -/
def State.reconMemory (s : State) (p : Nat) : Nat → Byte := (s.afterRecon p).1.readByte

/-- The coefficients of group p of VRECON, from the pixels that the groups before it left. -/
def State.reconCoefs (s : State) (p : Nat) : List Nat :=
  solution (points s s.cfgK.toNat) (rowPixels (s.reconMemory p) s.arg1.toNat s.arg3.toNat s.cfgK.toNat p) s.cfgK.toNat

/-- Group p: its coefficients' low bytes to the output, a 256 among them noted (R166). -/
theorem State.afterRecon_succ (s : State) (p : Nat) : s.afterRecon (p + 1) =
    ((s.afterRecon p).1.storeStrided (s.arg0.toNat + p * s.cfgK.toNat) 1 s.cfgK.toNat (s.reconCoefs p),
      (s.afterRecon p).2 || (s.reconCoefs p).any fun v => decide (v = 256)) := rfl

/-- The groups change DMEM only. -/
theorem State.afterRecon_eq (s : State) (p : Nat) :
    (s.afterRecon p).1 = { s with dmem := (s.afterRecon p).1.dmem } := by
  induction p with
  | zero => rfl
  | succ p ih =>
    obtain ⟨m, hm⟩ : ∃ m, (s.afterRecon p).1 = { s with dmem := m } := ⟨_, ih⟩
    rw [State.afterRecon_succ, hm, State.storeStrided_eq]

theorem State.afterRecon_wrapped_iff (s : State) (p : Nat) :
    (s.afterRecon p).2 = true ↔ ∃ q, q < p ∧ 256 ∈ s.reconCoefs q := by
  induction p with
  | zero => simp [State.afterRecon]
  | succ p ih =>
    have hany : ((s.reconCoefs p).any fun v => decide (v = 256)) = true ↔ 256 ∈ s.reconCoefs p := by simp
    rw [State.afterRecon_succ, Bool.or_eq_true, ih, hany]
    simp only [Nat.lt_succ_iff_lt_or_eq, or_and_right, exists_or, exists_eq_left]

/-- What VRECON leaves before its completion (R166). -/
def State.reconEnd (s : State) : State := (s.afterRecon s.arg2.toNat).1.flagWrap (s.afterRecon s.arg2.toNat).2

theorem performVrecon_of_legal {s : State} (h : LegalK s) (hgood : GoodPoints s s.cfgK.toNat)
    (hout : InDmem s s.arg0.toNat (s.arg2.toNat * s.cfgK.toNat))
    (hrows : ∀ j, j < s.cfgK.toNat → InDmem s (s.arg1.toNat + j * s.arg3.toNat) s.arg2.toNat) :
    performInstr .vrecon s = .ok s.reconEnd := by
  have hpass := reconPass_of_distinct (distinctPoints_of_goodPoints hgood) h.1 s.arg0.toNat s.arg1.toNat s.arg3.toNat
  rw [performVrecon_eq_withPoints, withPoints_of_good h hgood, reconRanges_of_inRange hout hrows, reconGroups,
    forUpE_eq_forUp hpass]
  rfl

theorem State.reconEnd_readByte (s : State) (b : Nat) : s.reconEnd.readByte b = s.reconMemory s.arg2.toNat b := rfl

/-- WRAP is sticky, and set when a coefficient was 256 (R166). -/
theorem State.reconEnd_wrap (s : State) : s.reconEnd.status.wrap = (s.status.wrap || (s.afterRecon s.arg2.toNat).2) := by
  rw [State.reconEnd, State.afterRecon_eq]
  rfl

theorem State.reconEnd_of_no_pixel {s : State} (h : s.arg2.toNat = 0) : s.reconEnd = s := by
  rw [State.reconEnd, h]
  show s.flagWrap false = s
  rw [State.flagWrap, Bool.or_false]

/-- Settles O39: the checks one after another; the frame is the one every command has. -/
theorem vreconChecksAndCompletes : Obligations.VreconChecksAndCompletes := by
  refine ⟨decode_encode .vrecon, fun s => ⟨fun hk => endsWith_of_error (withPoints_of_bad_k hk),
    fun hk j hj hbad hfirst => endsWith_of_error (withPoints_of_bad_point hk hj hbad hfirst),
    fun hk hgood hout => endsWith_of_error ?output, fun hk hgood hin hout => endsWith_of_error ?row,
    fun hk hgood hout hrows => ?legal⟩⟩
  case output => exact (withPoints_of_good hk hgood).trans (reconRanges_of_output_outside hout)
  case row =>
    obtain ⟨j, hj, hout⟩ := hout
    exact (withPoints_of_good hk hgood).trans (reconRanges_of_row_outside hin hj hout)
  case legal =>
    have hperform := performVrecon_of_legal hk hgood hout hrows
    obtain ⟨hrest, -, -⟩ := performVrecon_ok hperform
    refine ⟨_, completesAs_of_ok hperform, hrest, fun hwrap => ?_, (performInstr_frame hperform).bytes,
      State.reconEnd_of_no_pixel⟩
    rw [State.reconEnd_wrap, hwrap, Bool.true_or]

/-! ### What one group writes -/

/-- The output bytes of group p are the low bytes of its coefficients (R166). -/
theorem State.reconMemory_output (s : State) (p : Nat) {i : Nat} (hi : i < s.cfgK.toNat) :
    (s.reconMemory (p + 1) (s.arg0.toNat + p * s.cfgK.toNat + i)).toNat = (s.reconCoefs p).getD i 0 % 256 := by
  have hat := State.readByte_storeStrided_at (s.afterRecon p).1 (a := s.arg0.toNat + p * s.cfgK.toNat) (s.reconCoefs p)
    Nat.one_pos hi
  rw [Nat.mul_one] at hat
  rw [State.reconMemory, State.afterRecon_succ, hat, BitVec.toNat_ofNat]

/-- Group p writes no other byte. -/
theorem State.reconMemory_other (s : State) (p : Nat) {b : Nat} (hb : b < s.arg0.toNat + p * s.cfgK.toNat ∨
    s.arg0.toNat + p * s.cfgK.toNat + s.cfgK.toNat ≤ b) : s.reconMemory (p + 1) b = s.reconMemory p b := by
  rw [State.reconMemory, State.afterRecon_succ, State.readByte_storeStrided_outside _ _ fun i hi => by omega]
  rfl

/-- A byte that the groups from p up to q do not write. -/
theorem State.reconMemory_unwritten (s : State) {b p q : Nat} (hpq : p ≤ q)
    (h : ∀ g, p ≤ g → g < q → b < s.arg0.toNat + g * s.cfgK.toNat ∨ s.arg0.toNat + g * s.cfgK.toNat + s.cfgK.toNat ≤ b) :
    s.reconMemory q b = s.reconMemory p b := by
  induction q, hpq using Nat.le_induction with
  | base => rfl
  | succ q hpq ih =>
    rw [s.reconMemory_other q (h q hpq (Nat.lt_succ_self q)), ih fun g hlo hhi => h g hlo (Nat.lt_succ_of_lt hhi)]

/-- The output of a group stands at the end, for later groups write past it. -/
theorem State.reconMemory_output_at_end (s : State) {p i n : Nat} (hp : p < n) (hi : i < s.cfgK.toNat) :
    (s.reconMemory n (s.arg0.toNat + p * s.cfgK.toNat + i)).toNat = (s.reconCoefs p).getD i 0 % 256 := by
  rw [s.reconMemory_unwritten hp fun g hlo _ => .inl ?_, s.reconMemory_output p hi]
  have hlt := group_byte_lt hlo hi
  omega

/-- Where the output overlaps no row, each group finds the pixels as they were before the command. -/
theorem State.reconMemory_pixel_of_apart (s : State) {p r n : Nat} (hp : p < n)
    (hapart : Apart s.arg0.toNat (n * s.cfgK.toNat) r n) : s.reconMemory p (r + p) = s.readByte (r + p) := by
  refine s.reconMemory_unwritten (Nat.zero_le p) fun g _ hg => ?_
  by_contra hin
  obtain ⟨c, hc⟩ := Nat.exists_eq_add_of_le (show s.arg0.toNat + g * s.cfgK.toNat ≤ r + p by omega)
  exact hapart (g * s.cfgK.toNat + c) p (group_byte_lt (by omega) (by omega)) hp (by omega)

/-- The coefficients of group p go through its pixels. -/
theorem State.reconCoefs_interpolates {s : State} (h : LegalK s) (hgood : GoodPoints s s.cfgK.toNat) (p : Nat) :
    Interpolates (points s s.cfgK.toNat) (rowPixels (s.reconMemory p) s.arg1.toNat s.arg3.toNat s.cfgK.toNat p)
      s.cfgK.toNat (s.reconCoefs p) :=
  solution_interpolates (distinctPoints_of_goodPoints hgood) h.1 _

theorem State.poly_reconCoefs {s : State} (h : LegalK s) (hgood : GoodPoints s s.cfgK.toNat) (p : Nat) {j : Nat}
    (hj : j < s.cfgK.toNat) : poly (s.reconCoefs p) (s.xEntry j).toNat =
      (s.reconMemory p (s.arg1.toNat + j * s.arg3.toNat + p)).toNat := by
  have hpixel := getD_rowPixels (s.reconMemory p) s.arg1.toNat s.arg3.toNat p hj
  have hpoly := (State.reconCoefs_interpolates h hgood p).poly_eq hj (by rw [hpixel]; exact Nat.le_of_lt (BitVec.isLt _))
  rwa [getD_points s hj, hpixel] at hpoly

/-- Settles O40: the memories after each group, of which no output byte is written twice. -/
theorem vreconSolvesEachGroup : Obligations.VreconSolvesEachGroup := by
  intro s hk hgood hout hrows
  have hinter := State.reconCoefs_interpolates hk hgood
  refine ⟨_, s.reconMemory, s.reconCoefs, exec_of_completesAs (completesAs_of_ok (performVrecon_of_legal hk hgood hout hrows)),
    fun _ => rfl, s.reconEnd_readByte, fun p _ => ⟨(hinter p).length, (hinter p).canonical,
      fun j hj => State.poly_reconCoefs hk hgood p hj, fun i hi => s.reconMemory_output p hi,
      fun b hb => s.reconMemory_other p hb⟩, ?wrap, fun hapart p hp => ⟨fun j hj => ?pixels, fun i hi => ?output⟩⟩
  case wrap =>
    show s.reconEnd.status.wrap = true ↔ _
    rw [State.reconEnd_wrap, Bool.or_eq_true, State.afterRecon_wrapped_iff]
  case pixels => rw [State.poly_reconCoefs hk hgood p hj, s.reconMemory_pixel_of_apart hp (hapart j hj)]
  case output => exact s.reconMemory_output_at_end hp hi

end Sys2Proof.Machine
end

section
/-!
PROOFS. LSB stego (44_stego.md R180 to R184, 70_reset_and_hazards.md R258): SHIDE and SREVEAL are each a sequence of memories,
one per shadow byte, of which each differs from the one before in a block of its own. What a block holds at the end is what its pass
wrote, and what no pass has reached is as it was before the command.
-/

namespace Sys2Proof.Machine

open Sys2Proof.Statements

/-! ### The checks of SHIDE and SREVEAL -/

/-- A command that checks a range at ARG0, then one at ARG1, and leaves t (R182, R183). -/
def checkedRanges (s : State) (m n : Nat) (t : State) : Except EngineError State := do
  rangeOperand s s.arg0.toNat m Offset.arg0
  rangeOperand s s.arg1.toNat n Offset.arg1
  pure t

section
variable {s t : State} {m n : Nat}

theorem checkedRanges_of_first_outside (h : ¬ InDmem s s.arg0.toNat m) :
    checkedRanges s m n t = .error ⟨.addressError, Offset.arg0⟩ := by
  rw [checkedRanges, rangeOperand_of_outside (State.inRange_eq_false_iff.mpr h), Except.bind_of_error]

theorem checkedRanges_of_second_outside (hin : InDmem s s.arg0.toNat m) (h : ¬ InDmem s s.arg1.toNat n) :
    checkedRanges s m n t = .error ⟨.addressError, Offset.arg1⟩ := by
  rw [checkedRanges, rangeOperand_of_inRange (State.inRange_iff.mpr hin), Except.bind_of_ok,
    rangeOperand_of_outside (State.inRange_eq_false_iff.mpr h), Except.bind_of_error]

theorem checkedRanges_of_inRange (hin : InDmem s s.arg0.toNat m) (hin' : InDmem s s.arg1.toNat n) :
    checkedRanges s m n t = .ok t := by
  rw [checkedRanges, rangeOperand_of_inRange (State.inRange_iff.mpr hin), Except.bind_of_ok,
    rangeOperand_of_inRange (State.inRange_iff.mpr hin'), Except.bind_of_ok]
  rfl

theorem OnlyBytes.eq_with_dmem {inside : Nat → Prop} (h : OnlyBytes s t inside) : t = { s with dmem := t.dmem } := by
  obtain ⟨m, rfl⟩ := h.rest
  rfl

end

/-! ### Memories that change block by block -/

/-- A sequence of memories of which each differs from the one before in its own w bytes only, the blocks one after another
from base. -/
def Blockwise (base w : Nat) (m : Nat → Nat → Byte) : Prop :=
  ∀ i a, (a < base + w * i ∨ base + w * i + w ≤ a) → m (i + 1) a = m i a

section
variable {base w a p q : Nat} {m : Nat → Nat → Byte}

/-- A byte before the blocks, or in one not yet reached, is as it was. -/
theorem Blockwise.unreached (h : Blockwise base w m) (ha : a < base ∨ base + w * p ≤ a) : m p a = m 0 a := by
  induction p with
  | zero => rfl
  | succ p ih =>
    rw [Nat.mul_succ] at ha
    exact (h p a (by omega)).trans (ih (by omega))

/-- A block once passed is not changed again. -/
theorem Blockwise.stands (h : Blockwise base w m) (hpq : p ≤ q) (ha : a < base + w * p) : m q a = m p a := by
  induction q, hpq using Nat.le_induction with
  | base => rfl
  | succ q hpq ih =>
    have hblocks : w * p ≤ w * q := Nat.mul_le_mul_left w hpq
    exact (h q a (.inl (by omega))).trans ih

/-- What block i holds at the end is what its own pass left there. -/
theorem Blockwise.at_end (h : Blockwise base w m) {i j n : Nat} (hi : i < n) (hj : j < w) :
    m n (base + w * i + j) = m (i + 1) (base + w * i + j) :=
  h.stands hi (by rw [Nat.mul_succ]; omega)

/-- A byte of a range that no block meets is as it was, whatever pass reads it. -/
theorem Blockwise.of_apart (h : Blockwise base w m) {n b len k : Nat} (hapart : Apart base (w * n) b len) (hp : p ≤ n)
    (hk : k < len) : m p (b + k) = m 0 (b + k) := by
  refine h.unreached ?_
  have hblocks : w * p ≤ w * n := Nat.mul_le_mul_left w hp
  by_contra hmeets
  exact hapart (b + k - base) k (by omega) hk (by omega)

end

/-! ### One shadow byte hidden -/

theorem getLsbD_zero_hideBit (b c : Byte) (j : Nat) : (hideBit b c j).getLsbD 0 = b.getLsbD (7 - j) := by
  simp [hideBit]

/-- Bits 7:1 of the carrier byte are kept (R180). -/
theorem getLsbD_hideBit_of_pos (b c : Byte) (j : Nat) {k : Nat} (hk : 1 ≤ k) : (hideBit b c j).getLsbD k = c.getLsbD k := by
  by_cases hlt : k < 8
  · have hmask : (0xFE#8).getLsbD k = true := by interval_cases k <;> rfl
    have hone : (1#8).getLsbD k = false := by interval_cases k <;> rfl
    rw [hideBit, BitVec.getLsbD_or, BitVec.getLsbD_and, BitVec.getLsbD_and, hmask, hone, Bool.and_true, Bool.and_false,
      Bool.or_false]
  · rw [BitVec.getLsbD_of_ge _ _ (by omega), BitVec.getLsbD_of_ge _ _ (by omega)]

/-- What a pass of SHIDE leaves: the shadow byte as it was before the pass, in the LSBs of its 8 carrier bytes (R182). -/
theorem readByte_hidePass (cb sb i : Nat) (s : State) (a : Nat) : (hidePass cb sb i s).readByte a =
    if cb + 8 * i ≤ a ∧ a < cb + 8 * i + 8 then hideBit (s.readByte (sb + i)) (s.readByte a) (a - (cb + 8 * i))
    else s.readByte a := by
  refine forUp_induct (fun n (t : State) => t.readByte a =
    if cb + 8 * i ≤ a ∧ a < cb + 8 * i + n then hideBit (s.readByte (sb + i)) (s.readByte a) (a - (cb + 8 * i))
    else s.readByte a) (if_neg (by omega)).symm fun j t _ ht => ?_
  rw [State.readByte_writeByte]
  by_cases ha : a = cb + 8 * i + j
  · subst ha
    rw [if_neg (by omega)] at ht
    rw [if_pos rfl, if_pos (by omega), ht, Nat.add_sub_cancel_left]
  · rw [if_neg ha, ht]
    exact if_congr (by omega) rfl rfl

/-! ### SHIDE -/

/-- The state after the first p shadow bytes of SHIDE. -/
def State.afterHide (s : State) (p : Nat) : State := forUp p (hidePass s.arg0.toNat s.arg1.toNat) s

/-- DMEM as the first p shadow bytes of SHIDE leave it (R258). -/
def State.hideMemory (s : State) (p : Nat) : Nat → Byte := (s.afterHide p).readByte

theorem performShide_eq_checkedRanges (s : State) : performInstr .shide s =
    checkedRanges s (8 * s.arg2.toNat) s.arg2.toNat (s.afterHide s.arg2.toNat) := rfl

section
variable {s : State} {i j : Nat}

theorem State.hideMemory_succ (s : State) (i a : Nat) : s.hideMemory (i + 1) a =
    if s.arg0.toNat + 8 * i ≤ a ∧ a < s.arg0.toNat + 8 * i + 8 then
      hideBit (s.hideMemory i (s.arg1.toNat + i)) (s.hideMemory i a) (a - (s.arg0.toNat + 8 * i))
    else s.hideMemory i a :=
  readByte_hidePass s.arg0.toNat s.arg1.toNat i (s.afterHide i) a

theorem State.hideMemory_blockwise (s : State) : Blockwise s.arg0.toNat 8 s.hideMemory := fun i a ha => by
  rw [s.hideMemory_succ, if_neg (by omega)]

/-- Carrier byte j of a pass carries bit 7−j of the shadow byte the pass reads (R180). -/
theorem State.hideMemory_lsb (s : State) (i : Nat) (hj : j < 8) :
    (s.hideMemory (i + 1) (s.arg0.toNat + 8 * i + j)).getLsbD 0 = (s.hideMemory i (s.arg1.toNat + i)).getLsbD (7 - j) := by
  rw [s.hideMemory_succ, if_pos (by omega), getLsbD_zero_hideBit, Nat.add_sub_cancel_left]

theorem State.hideMemory_succ_high (s : State) (i a : Nat) {b : Nat} (hb : 1 ≤ b) :
    (s.hideMemory (i + 1) a).getLsbD b = (s.hideMemory i a).getLsbD b := by
  rw [s.hideMemory_succ]
  split
  · exact getLsbD_hideBit_of_pos _ _ _ hb
  · rfl

/-- Bits 7:1 of every byte are as they were (R184). -/
theorem State.hideMemory_high (s : State) (p a : Nat) {b : Nat} (hb : 1 ≤ b) :
    (s.hideMemory p a).getLsbD b = (s.readByte a).getLsbD b := by
  induction p with
  | zero => rfl
  | succ p ih => exact (s.hideMemory_succ_high p a hb).trans ih

/-- Where the shadow does not meet the carrier, the LSBs at the end are the shadow as it was, MSB first (R184). -/
theorem State.hideMemory_lsb_of_apart
    (hapart : Apart s.arg0.toNat (8 * s.arg2.toNat) s.arg1.toNat s.arg2.toNat) (hi : i < s.arg2.toNat) (hj : j < 8) :
    (s.hideMemory s.arg2.toNat (s.arg0.toNat + 8 * i + j)).getLsbD 0 = (s.readByte (s.arg1.toNat + i)).getLsbD (7 - j) := by
  rw [s.hideMemory_blockwise.at_end hi hj, s.hideMemory_lsb i hj, s.hideMemory_blockwise.of_apart hapart hi.le hi]
  rfl

end

/-- Settles O41: the checks one after another, then the memories after each shadow byte, of which no carrier byte is written
twice. -/
theorem shideHidesMsbFirst : Obligations.ShideHidesMsbFirst := by
  refine ⟨decode_encode .shide, fun s => ⟨fun hout => endsWith_of_error ?carrier,
    fun hin hout => endsWith_of_error ?shadow, fun hcarrier hshadow => ?legal⟩⟩
  case carrier => exact (performShide_eq_checkedRanges s).trans (checkedRanges_of_first_outside hout)
  case shadow => exact (performShide_eq_checkedRanges s).trans (checkedRanges_of_second_outside hin hout)
  case legal =>
    have hperform : performInstr .shide s = .ok (s.afterHide s.arg2.toNat) :=
      (performShide_eq_checkedRanges s).trans (checkedRanges_of_inRange hcarrier hshadow)
    exact ⟨_, completesAs_of_ok hperform, (performShide_ok hperform).eq_with_dmem,
      fun _ ha => s.hideMemory_blockwise.unreached ha, fun a _ hb => s.hideMemory_high _ a hb,
      fun hapart i j hi hj => State.hideMemory_lsb_of_apart hapart hi hj, s.hideMemory, fun _ => rfl, fun _ => rfl,
      fun i _ => ⟨fun j hj => s.hideMemory_lsb i hj, fun a _ hb => s.hideMemory_succ_high i a hb,
        s.hideMemory_blockwise i⟩⟩

/-! ### One shadow byte revealed -/

/-- One term of R181's sum in numbers. -/
theorem toNat_lsb_shiftLeft (b : Byte) (k : Nat) : (b &&& 1#8).toNat <<< k = b.toNat % 2 * 2 ^ k := by
  rw [BitVec.toNat_and, Nat.shiftLeft_eq]
  exact congrArg (· * 2 ^ k) (Nat.and_one_is_mod b.toNat)

/-- R181's sum written out, MSB first. -/
theorem State.revealAt_eq (s : State) (a : Nat) : s.revealAt a =
    (s.readByte (a + 0)).toNat % 2 * 128 + (s.readByte (a + 1)).toNat % 2 * 64 + (s.readByte (a + 2)).toNat % 2 * 32 +
      (s.readByte (a + 3)).toNat % 2 * 16 + (s.readByte (a + 4)).toNat % 2 * 8 + (s.readByte (a + 5)).toNat % 2 * 4 +
      (s.readByte (a + 6)).toNat % 2 * 2 + (s.readByte (a + 7)).toNat % 2 := by
  simp only [State.revealAt, toNat_lsb_shiftLeft, List.range_succ, List.range_zero, List.nil_append, List.cons_append,
    List.map_cons, List.map_nil, List.sum_cons, List.sum_nil]
  omega

/-- The terms of the sum are its binary digits. -/
theorem State.revealAt_digit (s : State) (a : Nat) {j : Nat} (hj : j < 8) :
    s.revealAt a / 2 ^ (7 - j) % 2 = (s.readByte (a + j)).toNat % 2 := by
  rw [State.revealAt_eq]
  interval_cases j <;> omega

theorem getLsbD_zero_toNat (b : Byte) : (b.getLsbD 0).toNat = b.toNat % 2 := by
  rw [BitVec.getLsbD, Nat.testBit_zero]
  rcases Nat.mod_two_eq_zero_or_one b.toNat with h | h <;> simp [h]

/-- Bit 7−j of the byte revealed is bit 0 of carrier byte j (R181). -/
theorem State.getLsbD_revealAt (s : State) (a : Nat) {j : Nat} (hj : j < 8) :
    (BitVec.ofNat 8 (s.revealAt a)).getLsbD (7 - j) = (s.readByte (a + j)).getLsbD 0 := by
  have hbyte : s.revealAt a < 2 ^ 8 := by
    rw [State.revealAt_eq]
    omega
  refine getLsbD_of_digit ?_
  rw [BitVec.toNat_ofNat, Nat.mod_eq_of_lt hbyte, s.revealAt_digit a hj, getLsbD_zero_toNat]

/-! ### SREVEAL -/

/-- The state after the first p output bytes of SREVEAL. -/
def State.afterReveal (s : State) (p : Nat) : State := forUp p (revealPass s.arg0.toNat s.arg1.toNat) s

/-- DMEM as the first p output bytes of SREVEAL leave it (R258). -/
def State.revealMemory (s : State) (p : Nat) : Nat → Byte := (s.afterReveal p).readByte

theorem performSreveal_eq_checkedRanges (s : State) : performInstr .sreveal s =
    checkedRanges s s.arg2.toNat (8 * s.arg2.toNat) (s.afterReveal s.arg2.toNat) := rfl

section
variable {s : State} {i j : Nat}

theorem State.revealMemory_succ (s : State) (i a : Nat) : s.revealMemory (i + 1) a =
    if a = s.arg0.toNat + i then BitVec.ofNat 8 ((s.afterReveal i).revealAt (s.arg1.toNat + 8 * i))
    else s.revealMemory i a :=
  State.readByte_writeByte (s.afterReveal i) _ a _

theorem State.revealMemory_other (s : State) (i : Nat) {a : Nat} (ha : a ≠ s.arg0.toNat + i) :
    s.revealMemory (i + 1) a = s.revealMemory i a := by
  rw [s.revealMemory_succ, if_neg ha]

theorem State.revealMemory_blockwise (s : State) : Blockwise s.arg0.toNat 1 s.revealMemory :=
  fun i _ ha => s.revealMemory_other i (by omega)

/-- An output byte is the LSBs of the 8 carrier bytes its pass reads, MSB first (R181). -/
theorem State.revealMemory_bit (s : State) (i : Nat) (hj : j < 8) :
    (s.revealMemory (i + 1) (s.arg0.toNat + i)).getLsbD (7 - j) =
      (s.revealMemory i (s.arg1.toNat + 8 * i + j)).getLsbD 0 := by
  rw [s.revealMemory_succ, if_pos rfl]
  exact (s.afterReveal i).getLsbD_revealAt _ hj

/-- Where the output does not meet the carrier, the output at the end is the carrier's LSBs as they were, MSB first (R183). -/
theorem State.revealMemory_bit_of_apart
    (hapart : Apart s.arg0.toNat s.arg2.toNat s.arg1.toNat (8 * s.arg2.toNat)) (hi : i < s.arg2.toNat) (hj : j < 8) :
    (s.revealMemory s.arg2.toNat (s.arg0.toNat + i)).getLsbD (7 - j) =
      (s.readByte (s.arg1.toNat + 8 * i + j)).getLsbD 0 := by
  rw [s.revealMemory_blockwise.stands hi (by omega), s.revealMemory_bit i hj, Nat.add_assoc,
    s.revealMemory_blockwise.of_apart (by rwa [Nat.one_mul]) hi.le (show 8 * i + j < 8 * s.arg2.toNat by omega)]
  rfl

end

/-- Settles O42: the checks one after another, then the memories after each output byte, none of which is written twice. -/
theorem srevealReadsMsbFirst : Obligations.SrevealReadsMsbFirst := by
  refine ⟨decode_encode .sreveal, fun s => ⟨fun hout => endsWith_of_error ?output,
    fun hin hout => endsWith_of_error ?carrier, fun houtput hcarrier => ?legal⟩⟩
  case output => exact (performSreveal_eq_checkedRanges s).trans (checkedRanges_of_first_outside hout)
  case carrier => exact (performSreveal_eq_checkedRanges s).trans (checkedRanges_of_second_outside hin hout)
  case legal =>
    have hperform : performInstr .sreveal s = .ok (s.afterReveal s.arg2.toNat) :=
      (performSreveal_eq_checkedRanges s).trans (checkedRanges_of_inRange houtput hcarrier)
    exact ⟨_, completesAs_of_ok hperform, (performSreveal_ok hperform).eq_with_dmem,
      fun _ ha => s.revealMemory_blockwise.unreached (by omega),
      fun hapart i j hi hj => State.revealMemory_bit_of_apart hapart hi hj, s.revealMemory, fun _ => rfl, fun _ => rfl,
      fun i _ => ⟨fun j hj => s.revealMemory_bit i hj, fun _ ha => s.revealMemory_other i ha⟩⟩

/-! ### The round trip -/

/-- Two bytes that agree MSB first are equal. -/
theorem byte_eq_of_msbFirst {b c : Byte} (h : ∀ j, j < 8 → b.getLsbD (7 - j) = c.getLsbD (7 - j)) : b = c := by
  refine BitVec.eq_of_getLsbD_eq fun k hk => ?_
  have hbit := h (7 - k) (by omega)
  rwa [Nat.sub_sub_self (Nat.le_of_lt_succ hk)] at hbit

/-- Settles O43: SREVEAL reads the LSBs that SHIDE left, so bit 7−j of each byte goes from the shadow to carrier byte 8i+j and
from there to the output. -/
theorem stegoRoundTrip : Obligations.StegoRoundTrip := by
  intro s t u hcarrier hshadow hapart hexec hdmem hpower hparams harg1 harg2 houtput hapart'
  obtain ⟨-, hshide⟩ := shideHidesMsbFirst
  obtain ⟨-, -, hhide⟩ := hshide s
  obtain ⟨t', ht', hrest, -, hhigh, hlow, -⟩ := hhide hcarrier hshadow
  obtain rfl := Host.Outcome.next.inj ((exec_of_completesAs ht').symm.trans hexec)
  have hparams' : t'.params = s.params := by rw [hrest]
  have hkept : u.params = s.params := hparams.trans hparams'
  have hcarrier' : InDmem u u.arg1.toNat (8 * u.arg2.toNat) := by rwa [InDmem, hkept, harg1, harg2]
  obtain ⟨-, hsreveal⟩ := srevealReadsMsbFirst
  obtain ⟨-, -, hreveal⟩ := hsreveal u
  obtain ⟨w, hw, -, -, hbits, -⟩ := hreveal houtput hcarrier'
  rw [harg1, harg2] at hbits hapart'
  refine ⟨fun i b _ hb => hhigh _ b hb, hlow hapart, _, exec_of_completesAs hw,
    fun i hi => byte_eq_of_msbFirst fun j hj => ?_⟩
  calc (w.readByte (u.arg0.toNat + i)).getLsbD (7 - j)
      = (u.readByte (s.arg0.toNat + 8 * i + j)).getLsbD 0 := hbits hapart' i j hi hj
    _ = (t'.readByte (s.arg0.toNat + 8 * i + j)).getLsbD 0 := by
        rw [State.readByte_congr (s := t') hdmem hpower]
    _ = (s.readByte (s.arg1.toNat + i)).getLsbD (7 - j) := hlow hapart i j hi hj

end Sys2Proof.Machine
end

section
/-!
PROOFS. The life of a command word (49_system.md R200 to R202): what a host write to CMD does with it, and the completion step of
an accepted word.
-/

namespace Sys2Proof.Machine

open Sys2Proof.Statements

/-! ### Completion -/

/-- What every completion step leaves, whatever the command did (R202). -/
structure Completed (t : State) : Prop where
  phase : t.phase = .idle
  busy : t.status.busy = false
  done : t.status.done = true

theorem State.complete_completed (s : State) : Completed s.complete := ⟨rfl, rfl, rfl⟩

theorem State.takeError_completed (s : State) (e : EngineError) : Completed (s.takeError e) := State.complete_completed _

/-- A word's completion step is never a fault or a refusal: a success completes, and so does an error entry (R202, R222). -/
theorem performWord_completes (c : Word) (s : State) : ∃ t, performWord c s = .next t ∧ Completed t := by
  obtain ⟨o, ho⟩ := performWord_is_finish c s
  rw [ho]
  rcases finish_cases s o with ⟨t, _, hfin⟩ | ⟨e, _, hfin⟩
  · exact ⟨_, hfin, t.complete_completed⟩
  · exact ⟨_, hfin, s.takeError_completed e⟩

/-- Settles O8: on either form of the engine's turn the step is the completion step of the accepted word. -/
theorem everyAcceptedCommandCompletes : Obligations.EveryAcceptedCommandCompletes := by
  intro s c hphase hturn
  obtain ⟨u, hstep⟩ : ∃ u, step s = performWord c u := by
    rcases hturn with hend | ⟨rest, hengine⟩
    · exact ⟨_, step_of_pending hphase hend⟩
    · exact ⟨_, step_of_engine_turn hphase hengine⟩
  obtain ⟨t, hnext, hcompleted⟩ := performWord_completes c u
  exact ⟨t, hstep.trans hnext, hcompleted.phase, hcompleted.busy, hcompleted.done⟩

/-- The completion step of a command's word is that command (R81). -/
theorem performWord_of_decode {c : Word} {i : Instr} (h : decode c = .ok i) (s : State) : performWord c s = exec i s := by
  rw [performWord, h]

/-- Settles O5: on either form of the engine's turn the step performs the accepted word, which is the decoded command's. -/
theorem stepRunsTheDecodedCommand : Obligations.StepRunsTheDecodedCommand :=
  fun _ _ _ hphase hdecode =>
    ⟨fun hend => (step_of_pending hphase hend).trans (performWord_of_decode hdecode _),
      fun _ hturn => (step_of_engine_turn hphase hturn).trans (performWord_of_decode hdecode _)⟩

/-! ### Acceptance -/

theorem State.offer_of_unready {s : State} (h : s.phase ≠ .idle ∨ s.status.err = true) (w : Word) :
    s.offer w = s.flagDrop := if_pos h

theorem State.offer_of_ready {s : State} (hidle : s.phase = .idle) (herr : s.status.err = false) (w : Word) :
    s.offer w = { s with phase := .busy w, status := accepted s.status } :=
  if_neg (by simp [hidle, herr])

/-- A host write to CMD offers its word to the engine (R201). -/
theorem State.busWrite_cmd (s : State) (w : Word) : s.busWrite .w32 Offset.cmd w = s.offer w :=
  s.busWrite_register .cmd w

/-- Settles O9: the write offers the word, and the engine's phase and ERR alone decide what becomes of it. -/
theorem cmdWriteIsAcceptedOrDropped : Obligations.CmdWriteIsAcceptedOrDropped :=
  fun s w =>
    ⟨fun hunready => (s.busWrite_cmd w).trans (State.offer_of_unready hunready w),
      fun hidle herr => (s.busWrite_cmd w).trans (State.offer_of_ready hidle herr w)⟩

/-! ### NOP -/

/-- Settles O13: NOP performs nothing before its completion, and its word is offered as every word. -/
theorem nopOnlyCompletes : Obligations.NopOnlyCompletes := by
  refine ⟨decode_encode .nop, fun s => completesAs_of_ok (i := .nop) rfl, fun s hidle herr => ?accepted,
    fun s hunready => ?dropped⟩
  case accepted =>
    obtain ⟨-, haccept⟩ := cmdWriteIsAcceptedOrDropped s 0#32
    exact haccept hidle herr
  case dropped =>
    obtain ⟨hdrop, -⟩ := cmdWriteIsAcceptedOrDropped s 0#32
    exact hdrop hunready

end Sys2Proof.Machine
end

section
/-!
PROOFS. Errors (60_exceptions.md R220 to R225): which kinds a command raises, what its report changes, and that the first report
stands until the host clears it.
-/

namespace Sys2Proof.Machine

open Sys2Proof.Statements

/-! ### The kinds of error a command raises -/

/-- An outcome that is no ILLEGAL_CMD error: that kind is the decoder's alone (R81, R220). -/
def NeverIllegalCmd {α : Type} (o : Except EngineError α) : Prop := ∀ e, o = .error e → e.kind ≠ .illegalCmd

theorem NeverIllegalCmd.ok {α : Type} (x : α) : NeverIllegalCmd (.ok x) := nofun

theorem NeverIllegalCmd.error {α : Type} {e : EngineError} (h : e.kind ≠ .illegalCmd) :
    NeverIllegalCmd (.error e : Except EngineError α) := by
  rintro _ ⟨⟩
  exact h

theorem NeverIllegalCmd.bind {α β : Type} {o : Except EngineError α} {f : α → Except EngineError β}
    (ho : NeverIllegalCmd o) (hf : ∀ x, NeverIllegalCmd (f x)) : NeverIllegalCmd (o >>= f) := by
  cases o with
  | ok x => exact hf x
  | error e => exact .error (ho e rfl)

theorem NeverIllegalCmd.forUpE {α : Type} {body : Nat → α → Except EngineError α}
    (h : ∀ i x, NeverIllegalCmd (body i x)) (n : Nat) (x : α) : NeverIllegalCmd (forUpE n body x) := by
  induction n with
  | zero => exact .ok x
  | succ n ih =>
    unfold Machine.forUpE
    split
    · exact h n _
    · exact .error (ih _ ‹_›)

/-! The checks: each raises the one kind its rule names. -/

theorem seedOperand_neverIllegalCmd (arg off : Word) : NeverIllegalCmd (seedOperand arg off) := by
  unfold seedOperand
  split
  · exact .error nofun
  · exact .ok _

theorem canonOperand_neverIllegalCmd (arg off : Word) : NeverIllegalCmd (canonOperand arg off) := by
  unfold canonOperand
  split
  · exact .ok _
  · exact .error nofun

theorem thresholdOperand_neverIllegalCmd (s : State) : NeverIllegalCmd (thresholdOperand s) := by
  unfold thresholdOperand
  split
  · exact .error nofun
  · exact .ok _

theorem shareOperand_neverIllegalCmd (s : State) : NeverIllegalCmd (shareOperand s) := by
  unfold shareOperand
  split
  · exact .error nofun
  · exact .ok _

theorem entriesOperand_neverIllegalCmd (k : Nat) (entry : Nat → Entry) (test : Nat → Bool) (offset : Nat → Word) :
    NeverIllegalCmd (entriesOperand k entry test offset) := by
  unfold entriesOperand
  split
  · exact .error nofun
  · exact .ok _

theorem pointsOperand_neverIllegalCmd (s : State) (k : Nat) : NeverIllegalCmd (pointsOperand s k) := by
  unfold pointsOperand
  split
  · exact .error nofun
  · exact .ok _

theorem rangeOperand_neverIllegalCmd (s : State) (base len : Nat) (off : Word) :
    NeverIllegalCmd (rangeOperand s base len off) := by
  unfold rangeOperand
  split
  · exact .ok _
  · exact .error nofun

theorem stridedOperand_neverIllegalCmd (s : State) (m base stride len : Nat) (off : Word) :
    NeverIllegalCmd (stridedOperand s m base stride len off) := by
  unfold stridedOperand
  split
  · exact .error nofun
  · exact .ok _

theorem solveOperand_neverIllegalCmd (x y : List Nat) (k : Nat) : NeverIllegalCmd (solveOperand x y k) := by
  unfold solveOperand
  split
  · exact .ok _
  · exact .error nofun

theorem performGinv_neverIllegalCmd (s : State) : NeverIllegalCmd (performGinv s) := by
  refine .bind (canonOperand_neverIllegalCmd _ _) fun a => ?_
  split
  · exact .error nofun
  · exact .ok _

theorem performField_neverIllegalCmd (op : Nat → Nat → Nat) (s : State) : NeverIllegalCmd (performField op s) :=
  .bind (canonOperand_neverIllegalCmd _ _) fun _ => .bind (canonOperand_neverIllegalCmd _ _) fun _ => .ok _

theorem reconPass_neverIllegalCmd (x : List Nat) (k o b stride p : Nat) (z : State × Bool) :
    NeverIllegalCmd (reconPass x k o b stride p z) :=
  .bind (solveOperand_neverIllegalCmd _ _ _) fun _ => .ok _

/-- No command raises ILLEGAL_CMD: it raises what its checks raise, in their order. -/
theorem performInstr_neverIllegalCmd (i : Instr) (s : State) : NeverIllegalCmd (performInstr i s) := by
  cases i with
  | nop | rnext | gmod => exact .ok _
  | rseed => exact .bind (seedOperand_neverIllegalCmd _ _) fun _ => .ok _
  | rgen | rmask =>
    exact .bind (seedOperand_neverIllegalCmd _ _) fun _ => .bind (rangeOperand_neverIllegalCmd _ _ _ _) fun _ => .ok _
  | ginv => exact performGinv_neverIllegalCmd s
  | gadd | gsub | gmul => exact performField_neverIllegalCmd _ s
  | peval =>
    exact .bind (thresholdOperand_neverIllegalCmd s) fun _ => .bind (canonOperand_neverIllegalCmd _ _) fun _ =>
      .bind (entriesOperand_neverIllegalCmd _ _ _ _) fun _ => .ok _
  | pshare =>
    exact .bind (shareOperand_neverIllegalCmd s) fun _ => .bind (entriesOperand_neverIllegalCmd _ _ _ _) fun _ => .ok _
  | psharebuf =>
    exact .bind (shareOperand_neverIllegalCmd s) fun _ => .bind (stridedOperand_neverIllegalCmd _ _ _ _ _ _) fun _ =>
      .bind (rangeOperand_neverIllegalCmd _ _ _ _) fun _ => .ok _
  | vsolve =>
    exact .bind (thresholdOperand_neverIllegalCmd s) fun _ => .bind (pointsOperand_neverIllegalCmd s _) fun _ =>
      .bind (entriesOperand_neverIllegalCmd _ _ _ _) fun _ => .bind (solveOperand_neverIllegalCmd _ _ _) fun _ => .ok _
  | vrecon =>
    exact .bind (thresholdOperand_neverIllegalCmd s) fun _ => .bind (pointsOperand_neverIllegalCmd s _) fun _ =>
      .bind (rangeOperand_neverIllegalCmd _ _ _ _) fun _ => .bind (stridedOperand_neverIllegalCmd _ _ _ _ _ _) fun _ =>
      .bind (.forUpE (reconPass_neverIllegalCmd _ _ _ _ _) _ _) fun _ => .ok _
  | shide | sreveal =>
    exact .bind (rangeOperand_neverIllegalCmd _ _ _ _) fun _ => .bind (rangeOperand_neverIllegalCmd _ _ _ _) fun _ => .ok _

/-! ### The report of a command's error -/

/-- The codes of the kinds other than ILLEGAL_CMD (R220). -/
theorem ErrorKind.code_range_of_command {k : ErrorKind} (h : k ≠ .illegalCmd) : 2 ≤ k.code.toNat ∧ k.code.toNat ≤ 5 := by
  cases k with
  | illegalCmd => exact absurd rfl h
  | invalidArgument | malformedShadow | addressError | arithmeticFailure => decide

/-- A success keeps ERR as it is (R47). -/
theorem CommandFrame.err {i : Instr} {s t : State} (h : CommandFrame i s t) : t.status.err = s.status.err := by
  obtain ⟨_, _, _, _, _, _, _, _, rfl⟩ := h.engineOnly
  rfl

/-- Settles O10: only the error entry sets ERR, on the state before the command, and no command raises ILLEGAL_CMD. -/
theorem errorsChangeOnlyTheReport : Obligations.ErrorsChangeOnlyTheReport := by
  refine ⟨fun i s t h hclear hset => ?_, takeError_eq_reported⟩
  rcases exec_cases h with ⟨u, _, hframe, rfl⟩ | ⟨⟨kind, info⟩, he, rfl⟩
  · have hkept : u.complete.status.err = false := hframe.err.trans hclear
    exact absurd (hkept.symm.trans hset) Bool.false_ne_true
  · exact ⟨kind, info, takeError_eq_reported s kind info,
      ErrorKind.code_range_of_command (performInstr_neverIllegalCmd i s _ he)⟩

/-! ### The report while ERR = 1 -/

/-- From s to t the report stands as it was, or has been cleared whole (R225, R224). -/
def KeepsOrClearsReport (s t : State) : Prop :=
  (t.status.err = s.status.err ∧ t.status.errcode = s.status.errcode ∧ t.errinfo = s.errinfo) ∨
    (t.status.err = false ∧ t.status.errcode = 0#8 ∧ t.errinfo = 0#32)

theorem KeepsOrClearsReport.refl (s : State) : KeepsOrClearsReport s s := .inl ⟨rfl, rfl, rfl⟩

/-- A soft reset clears the report whole (R251). -/
theorem softReset_clears_report (s : State) :
    s.softReset.status.err = false ∧ s.softReset.status.errcode = 0#8 ∧ s.softReset.errinfo = 0#32 := by
  rcases s.softReset_cases with ⟨_, hs⟩ | ⟨_, _, hs⟩ <;> rw [hs] <;> exact ⟨rfl, rfl, rfl⟩

/-- Of all host writes only a soft reset and a STATUS write with bit 2 set touch the report, and they clear it (R251, R224). -/
theorem WriteEffect.keepsOrClearsReport {s u : State} {v : Word} (h : WriteEffect s v u) : KeepsOrClearsReport s u := by
  cases h with
  | illegal | readOnly | hazard => exact .inl ⟨rfl, rfl, rfl⟩
  | ctrl =>
    rcases s.writeCtrl_cases v with ⟨_, hs⟩ | ⟨_, hs⟩ <;> rw [hs]
    · exact .inr (softReset_clears_report s)
    · exact .inl ⟨rfl, rfl, rfl⟩
  | status =>
    cases hv : v.getLsbD 2 with
    | true => exact .inr (s.writeStatus_clears_report hv)
    | false => exact .inl (s.writeStatus_keeps_report hv)
  | cmd => rcases s.offer_cases v with ⟨_, hs⟩ | ⟨_, _, hs⟩ <;> rw [hs] <;> exact .inl ⟨rfl, rfl, rfl⟩
  | data hw => exact .inl ⟨congrArg Status.err hw.status, congrArg Status.errcode hw.status, hw.errinfo⟩

theorem HostEffect.keepsOrClearsReport {s u : State} (h : HostEffect s u) : KeepsOrClearsReport s u := by
  cases h with
  | silent => exact .refl s
  | write w off v => exact (s.busWrite_effect w off v).keepsOrClearsReport
  | read w off => rcases s.busRead_state w off with ⟨hs, _⟩ | ⟨_, hs⟩ <;> rw [hs] <;> exact .inl ⟨rfl, rfl, rfl⟩

/-- The engine has nothing to complete while ERR = 1: a command is pending only with ERR = 0 (R201). -/
theorem engineStep_of_err {s t : State} (h : StatusCoherent s) (herr : s.status.err = true)
    (ht : engineStep s = .next t) : t = s := by
  rcases engineStep_cases ht with ⟨_, hts⟩ | ⟨c, hphase, _⟩
  · exact hts
  · obtain ⟨hclear, _⟩ := h.pending_clean (by rw [State.commandPending, hphase])
    exact absurd (hclear.symm.trans herr) Bool.false_ne_true

/-- Settles O57: the engine is idle while ERR = 1, and the other agents keep the report or clear it whole. -/
theorem theFirstReportIsNeverOverwritten : Obligations.TheFirstReportIsNeverOverwritten := by
  intro s t hs herr hstep
  have hreport : KeepsOrClearsReport s t := by
    refine step_keeps (inv := fun s t => StatusCoherent s → s.status.err = true → KeepsOrClearsReport s t)
      ?schedule ?host ?effect ?engine ?power hstep hs herr
    case schedule => exact fun s rest t ht hs => ht (hs.congr rfl rfl rfl rfl rfl rfl)
    case host => exact fun s u g hu => hu
    case effect => exact fun s u hu _ _ => hu.keepsOrClearsReport
    case engine => exact fun s t ht hs herr => engineStep_of_err hs herr ht ▸ .refl s
    case power => exact fun s _ _ => .inr ⟨rfl, rfl, rfl⟩
  rcases hreport with ⟨hkept, hrest⟩ | hcleared
  · exact .inl ⟨hkept.trans herr, hrest⟩
  · exact .inr hcleared

/-! ### Return from an error -/

/-- Settles O45: the STATUS write clears the report and touches nothing else, so the idle engine takes the next word. -/
theorem returnFromErrorReopensTheEngine : Obligations.ReturnFromErrorReopensTheEngine := by
  intro s w c hw hidle
  obtain ⟨herr, hcode, hinfo⟩ := s.writeStatus_clears_report hw
  have haccept : (s.writeStatus w).busWrite .w32 Offset.cmd c =
      { s.writeStatus w with phase := .busy c, status := accepted (s.writeStatus w).status } :=
    (State.busWrite_cmd _ c).trans (State.offer_of_ready (s := s.writeStatus w) hidle herr c)
  exact ⟨s.writeStatus w, s.busWrite_register .status w, herr, hcode, hinfo, rfl, rfl, rfl, rfl, rfl, rfl, rfl, haccept⟩

end Sys2Proof.Machine
end

section
/-!
PROOFS. The BUSY window as the host sees it (70_reset_and_hazards.md R254 to R256): which writes are performed, ignored or
dropped, and which reads return a free draw.
-/

namespace Sys2Proof.Machine

open Sys2Proof.Statements

/-! ### Writes -/

/-- The registers that hold operands or S: a host write to them waits for BUSY = 0 (R255). -/
def operandRegs : List Reg := [.arg0, .arg1, .arg2, .arg3, .cfg, .prngLo, .prngHi]

/-- The read-only registers (R24, R30, R33 to R36). -/
def readOnlyRegs : List Reg := [.id, .res0, .repairs, .errinfo, .param, .dmemsz]

/-- A legal write at a register's offset is a write of that register. -/
theorem State.busWrite_legal_register {s : State} {w : Width} {r : Reg} (v : Word) (h : LegalAccess s.params w r.offset) :
    s.busWrite w r.offset v = s.writeReg r v := by
  rw [legalAccess_offset h, State.busWrite_register]

/-- In the BUSY window a write of an operand register only sets HZD (R255). -/
theorem State.writeReg_operand_busy {s : State} (hb : s.status.busy = true) (v : Word) :
    ∀ r ∈ operandRegs, s.writeReg r v = s.flagHazard := by
  have ignored (t : State) : s.unlessBusy t = s.flagHazard := State.unlessBusy_of_busy t hb
  simp only [operandRegs, List.forall_mem_cons]
  exact ⟨ignored _, ignored _, ignored _, ignored _, ignored _, ignored _, ignored _, nofun⟩

/-- A write of a read-only register changes nothing, in and out of the BUSY window. -/
theorem State.writeReg_readOnly (s : State) (v : Word) : ∀ r ∈ readOnlyRegs, s.writeReg r v = s := by
  simp only [readOnlyRegs, List.forall_mem_cons]
  exact ⟨rfl, rfl, rfl, rfl, rfl, rfl, nofun⟩

theorem Reg.offset_lt (r : Reg) : r.offset.toNat < 0x400 := by
  cases r <;> decide

/-- In the BUSY window a legal write past the register block, of a table entry or of DMEM, only sets HZD (R255). -/
theorem State.busWrite_storage_busy {s : State} {w : Width} {off : Word} (hb : s.status.busy = true) (v : Word)
    (hlegal : LegalAccess s.params w off) (hoff : 0x400 ≤ off.toNat) : s.busWrite w off v = s.flagHazard := by
  obtain ⟨g, hg⟩ := accessTarget_of_legal hlegal
  rw [State.busWrite, hg]
  cases g with
  | reg r =>
    obtain ⟨_, rfl⟩ := accessTarget_eq_reg hg
    exact absurd r.offset_lt (Nat.not_lt.mpr hoff)
  | xtab j | ytab j | coef j | dmem a => exact State.unlessBusy_of_busy _ hb

/-- Settles O49: a legal write reaches a register at its own offset, or a table entry or DMEM past the register block. -/
theorem busyWindowIgnoresOperandWrites : Obligations.BusyWindowIgnoresOperandWrites := by
  intro s w off v hb hlegal
  refine ⟨?ignored, ?readOnly, ?ie, ?srst, ?status, ?cmd⟩
  case ignored =>
    rintro (hoperand | hstorage)
    · obtain ⟨r, hr, rfl⟩ := List.mem_map.mp (show off ∈ operandRegs.map Reg.offset from hoperand)
      exact (State.busWrite_legal_register v hlegal).trans (State.writeReg_operand_busy hb v r hr)
    · exact State.busWrite_storage_busy hb v hlegal hstorage
  case readOnly =>
    intro hreadOnly
    obtain ⟨r, hr, rfl⟩ := List.mem_map.mp (show off ∈ readOnlyRegs.map Reg.offset from hreadOnly)
    exact (State.busWrite_legal_register v hlegal).trans (s.writeReg_readOnly v r hr)
  case ie =>
    rintro rfl hv
    rw [legalAccess_offset (r := .ctrl) hlegal]
    exact s.busWrite_ctrl_ie hv
  case srst =>
    rintro rfl hv
    exact (State.busWrite_legal_register (r := .ctrl) v hlegal).trans (if_pos hv)
  case status =>
    rintro rfl
    exact State.busWrite_legal_register (r := .status) v hlegal
  case cmd =>
    rintro rfl hphase
    exact (State.busWrite_legal_register (r := .cmd) v hlegal).trans (State.offer_of_unready (.inl hphase) v)

/-! ### Reads -/

/-- In the BUSY window a register that a command may write reads as a free word (R256). -/
theorem State.busRead_register_unstable {s : State} (hb : s.status.busy = true) {r : Reg} (h : r.unstable = true) :
    s.busRead .w32 r.offset = s.drawWord := by
  rw [State.busRead_register, State.readReg, if_pos (by rw [hb, h]; rfl)]

theorem State.readEntry_busy {s : State} (hb : s.status.busy = true) (v : Entry) :
    s.readEntry v = (s.drawEntry.1.zeroExtend 32, s.drawEntry.2) := if_pos hb

theorem State.readDmem_busy {s : State} (hb : s.status.busy = true) (a n : Nat) :
    s.readDmem a n = (BitVec.ofNat 32 (s.drawBytes n).1, (s.drawBytes n).2) := if_pos hb

/-- Each drawn byte takes a draw of its own, and the number is their little-endian sum. -/
theorem State.drawBytes_eq_sum (s : State) (n : Nat) : s.drawBytes n =
    (∑ i ∈ Finset.range n, (Config.freeByte (s.draws + i)).toNat * 2 ^ (8 * i), { s with draws := s.draws + n }) := by
  unfold State.drawBytes
  refine forUp_induct (fun m (x : Nat × State) => x =
    (∑ i ∈ Finset.range m, (Config.freeByte (s.draws + i)).toNat * 2 ^ (8 * i), { s with draws := s.draws + m })) rfl
    fun i x _ hx => ?_
  rw [hx, Finset.sum_range_succ]
  rfl

/-- A number of n bytes with one more byte on top. -/
theorem add_byte_lt {m n : Nat} (h : m < 2 ^ (8 * n)) (b : Byte) : m + b.toNat * 2 ^ (8 * n) < 2 ^ (8 * (n + 1)) := by
  have hbyte : b.toNat * 2 ^ (8 * n) ≤ (2 ^ 8 - 1) * 2 ^ (8 * n) := Nat.mul_le_mul_right _ (Nat.le_pred_of_lt b.isLt)
  rw [Nat.mul_succ, Nat.pow_add]
  omega

/-- n drawn bytes are an n-byte number. -/
theorem State.drawBytes_lt (s : State) (n : Nat) : (s.drawBytes n).1 < 2 ^ (8 * n) := by
  unfold State.drawBytes
  exact forUp_induct (fun m (x : Nat × State) => x.1 < 2 ^ (8 * m)) Nat.one_pos
    fun _ x _ hx => add_byte_lt hx x.2.drawByte.1

/-- An access draws at most the 32 bits of a word. -/
theorem State.drawBytes_width_lt (s : State) (w : Width) : (s.drawBytes w.bytes).1 < 2 ^ 32 :=
  Nat.lt_of_lt_of_le (s.drawBytes_lt w.bytes) (Nat.pow_le_pow_right (by decide) (by cases w <;> decide))

/-- Settles O50: the offset leads to a register, a table entry or DMEM, whose read is a free draw or the value it holds. -/
theorem busyWindowReads : Obligations.BusyWindowReads := by
  intro s hb
  have hfree {r : Reg} := State.busRead_register_unstable hb (r := r)
  have hread {r : Reg} := s.busRead_register_stable (r := r)
  refine ⟨?registers, fun j hj => ⟨?ytab, ?coef, s.busRead_xtab hj⟩, fun w a ha hin hoff => ?dmem,
    hread (r := .id) rfl, hread (r := .ctrl) rfl, hread (r := .status) rfl, hread (r := .arg0) rfl,
    hread (r := .arg1) rfl, hread (r := .arg2) rfl, hread (r := .arg3) rfl, hread (r := .cfg) rfl,
    hread (r := .param) rfl, hread (r := .dmemsz) rfl⟩
  case registers =>
    simp only [List.forall_mem_cons]
    exact ⟨hfree (r := .res0) rfl, hfree (r := .prngLo) rfl, hfree (r := .prngHi) rfl, hfree (r := .repairs) rfl,
      hfree (r := .errinfo) rfl, nofun⟩
  case ytab =>
    rw [State.busRead, accessTarget_ytab _ hj]
    exact State.readEntry_busy hb _
  case coef =>
    rw [State.busRead, accessTarget_coef _ hj]
    exact State.readEntry_busy hb _
  case dmem =>
    have hbytes : 0 < w.bytes := by cases w <;> decide
    have hdraw := s.drawBytes_eq_sum w.bytes
    refine ⟨BitVec.ofNat 32 (s.drawBytes w.bytes).1, ?_, ?_⟩
    · rw [State.busRead, accessTarget_dmem ha hin (by omega)]
      exact (State.readDmem_busy hb a _).trans (congrArg (_, ·) (congrArg Prod.snd hdraw))
    · rw [BitVec.toNat_ofNat, Nat.mod_eq_of_lt (s.drawBytes_width_lt w), hdraw]

end Sys2Proof.Machine
end

section
/-!
PROOFS. The resets (70_reset_and_hazards.md R250 to R252; 10_state.md R47): every reset is the reset state of the same parameters
with what it keeps, and a soft reset gives the abandoned command's write set free draws, one to each location.
-/

namespace Sys2Proof.Machine

open Sys2Proof.Statements

/-! ### Power-on -/

/-- Settles O60: nothing is listed, and STATUS and the phase are those of a reset. -/
theorem resetIsCoherent : Obligations.ResetIsCoherent :=
  fun p => ⟨.of_reset rfl rfl rfl, (powerOnReset_storageCoherent (State.resetWith p)).congr rfl rfl rfl rfl rfl⟩

/-- A power-on turn is a power-on reset, whatever the engine and the host do (R233). -/
theorem step_of_powerOn_turn {s : State} {rest : List Turn} (h : s.schedule = .powerOn :: rest) :
    step s = .next (State.powerOnReset { s with schedule := rest }) := by
  rw [step, h]

/-- After a power-on only the model's own fields and the host differ from the reset state (R250, R252). -/
theorem powerOn_eq_resetWith {u : State}
    (h : (∃ p, u = State.resetWith p) ∨ ∃ s rest, s.schedule = .powerOn :: rest ∧ step s = .next u) :
    ∃ p n d g l, u = { State.resetWith p with powerOns := n, draws := d, host := g, schedule := l } := by
  rcases h with ⟨p, rfl⟩ | ⟨s, rest, hturn, hstep⟩
  · exact ⟨p, _, _, _, _, rfl⟩
  · cases (step_of_powerOn_turn hturn).symm.trans hstep
    exact ⟨s.params, _, _, _, _, rfl⟩

/-- Settles O55: the registers are those of the reset state, and with nothing listed every location reads its power-on value. -/
theorem powerOnResetValues : Obligations.PowerOnResetValues := by
  intro u hu
  obtain ⟨p, n, d, g, l, rfl⟩ := powerOn_eq_resetWith hu
  have hword : Status.zero.word = 0#32 := by decide
  refine ⟨rfl, rfl, hword, rfl, rfl, rfl, rfl, rfl, rfl, rfl, rfl, rfl, rfl, rfl, rfl, fun j => ⟨rfl, rfl, rfl, rfl⟩, ?_⟩
  intro s rest hturn hstep
  exact congrArg State.powerOns (Host.Outcome.next.inj (hstep.symm.trans (step_of_powerOn_turn hturn)))

/-! ### Free draws on an abandoned write set -/

/-- From s to t nothing but DMEM and the draw counter changes, no byte outside the set, and the set's bytes are drawn. -/
structure OnlyBytesDrawn (s t : State) (inside : Nat → Prop) : Prop where
  rest : ∃ m d, t = { s with dmem := m, draws := d }
  kept : ∀ a, ¬ inside a → t.readByte a = s.readByte a
  drawn : BytesDrawn s t inside

theorem OnlyBytesDrawn.refl (s : State) : OnlyBytesDrawn s s fun _ => False :=
  ⟨⟨_, _, rfl⟩, fun _ _ => rfl, .refl s⟩

/-- The same set of addresses in other words. -/
theorem OnlyBytesDrawn.congr {s t : State} {p q : Nat → Prop} (h : OnlyBytesDrawn s t p) (hpq : ∀ a, q a ↔ p a) :
    OnlyBytesDrawn s t q :=
  ⟨h.rest, fun a ha => h.kept a (mt (hpq a).mpr ha), h.drawn.mono fun a => (hpq a).mp⟩

theorem OnlyBytesDrawn.scrambleBytes {s t : State} {p : Nat → Prop} (h : OnlyBytesDrawn s t p) (a len : Nat) :
    OnlyBytesDrawn s (t.scrambleBytes a len) fun c => p c ∨ (a ≤ c ∧ c < a + len) where
  rest := by
    obtain ⟨m, d, rfl⟩ := h.rest
    exact ⟨_, _, State.scrambleBytes_eq _ a len⟩
  kept c hc := by
    rw [State.readByte_scrambleBytes t (by omega), h.kept c fun hp => hc (.inl hp)]
  drawn := h.drawn.scrambleBytes a len

/-- One range of bytes drawn. -/
theorem State.scrambleBytes_drawn (s : State) (a len : Nat) :
    OnlyBytesDrawn s (s.scrambleBytes a len) fun c => a ≤ c ∧ c < a + len :=
  ((OnlyBytesDrawn.refl s).scrambleBytes a len).congr fun _ => by simp only [false_or]

/-- n ranges of bytes drawn, at a fixed stride. -/
theorem OnlyBytesDrawn.scrambleStrided {s t : State} {p : Nat → Prop} (h : OnlyBytesDrawn s t p) (a stride len n : Nat) :
    OnlyBytesDrawn s (forUp n (fun i u => u.scrambleBytes (a + i * stride) len) t) fun c =>
      p c ∨ ∃ m, m < n ∧ a + m * stride ≤ c ∧ c < a + m * stride + len := by
  refine forUp_induct
    (fun n u => OnlyBytesDrawn s u fun c => p c ∨ ∃ m, m < n ∧ a + m * stride ≤ c ∧ c < a + m * stride + len)
    (h.congr fun c => by simp) fun i u _ hu => (hu.scrambleBytes (a + i * stride) len).congr fun c => ?_
  rw [Nat.exists_lt_succ_right, or_assoc]

/-- What abandoning a command leaves (R251, R47): the entries of its write set read as the first draws, COEF before YTAB, the
bytes of its write set as draws of their own, and every other location as before. -/
structure AbandonedAs (i : Instr) (s t : State) : Prop where
  draws : s.draws + coefsWritten i s + valuesWritten i s ≤ t.draws
  coefs : ∀ j, t.coefEntry j = if j < coefsWritten i s then Config.freeEntry (s.draws + j) else s.coefEntry j
  values : ∀ j, t.yEntry j =
    if j < valuesWritten i s then Config.freeEntry (s.draws + coefsWritten i s + j) else s.yEntry j
  kept : ∀ a, ¬ WritesDmem i s a → t.readByte a = s.readByte a
  drawn : BytesDrawn s t (WritesDmem i s)

/-- A command with bytes alone, or nothing, in its write set. -/
theorem AbandonedAs.of_bytes {i : Instr} {s t : State} (h : OnlyBytesDrawn s t (WritesDmem i s))
    (hcoefs : coefsWritten i s = 0) (hvalues : valuesWritten i s = 0) : AbandonedAs i s t := by
  obtain ⟨⟨m, d, rfl⟩, hkept, hdrawn⟩ := h
  refine ⟨?_, fun j => ?_, fun j => ?_, hkept, hdrawn⟩
  · rw [hcoefs, hvalues]
    exact hdrawn.draws
  · rw [hcoefs]
    rfl
  · rw [hvalues]
    rfl

/-- A command with no byte in its write set draws none. -/
theorem BytesDrawn.of_none {s t : State} {p : Nat → Prop} (hparams : t.params = s.params) (hdraws : s.draws ≤ t.draws)
    (hp : ∀ a, ¬ p a) : BytesDrawn s t p :=
  ⟨hparams, hdraws, id, fun a ha => absurd ha (hp a), fun a _ ha => absurd ha (hp a)⟩

/-- VSOLVE's write set: K coefficients (R47). -/
theorem State.scrambleCoef_abandoned (s : State) : AbandonedAs .vsolve s (s.scrambleCoef s.cfgK.toNat) := by
  have hdraws : (s.scrambleCoef s.cfgK.toNat).draws = s.draws + s.cfgK.toNat := s.scrambleCoef_draws _
  have hcoefs := s.coefEntry_scrambleCoef s.cfgK.toNat
  rw [State.scrambleCoef_eq] at hdraws hcoefs ⊢
  exact ⟨Nat.le_of_eq hdraws.symm, hcoefs, fun _ => rfl, fun _ _ => rfl, .of_none rfl (by omega) fun _ => id⟩

/-- Scrambled values leave the coefficients alone. -/
theorem State.coefEntry_scrambleY (s : State) (n j : Nat) : (s.scrambleY n).coefEntry j = s.coefEntry j := by
  rw [State.scrambleY_eq]
  rfl

/-- Scrambled coefficients leave the values alone. -/
theorem State.yEntry_scrambleCoef (s : State) (k j : Nat) : (s.scrambleCoef k).yEntry j = s.yEntry j := by
  rw [State.scrambleCoef_eq]
  rfl

/-- Scrambled entries leave DMEM and the parameters alone. -/
theorem State.scrambleEntries_eq (s : State) (k n : Nat) :
    ∃ c y d, (s.scrambleCoef k).scrambleY n = { s with coef := c, ytab := y, draws := d } := by
  rw [State.scrambleY_eq, State.scrambleCoef_eq]
  exact ⟨_, _, _, rfl⟩

/-- PSHARE's write set: K coefficients and N values (R47). -/
theorem State.scrambleEntries_abandoned (s : State) :
    AbandonedAs .pshare s ((s.scrambleCoef s.cfgK.toNat).scrambleY s.cfgN.toNat) := by
  have hdraws : ((s.scrambleCoef s.cfgK.toNat).scrambleY s.cfgN.toNat).draws = s.draws + s.cfgK.toNat + s.cfgN.toNat := by
    rw [State.scrambleY_draws, State.scrambleCoef_draws]
  obtain ⟨c, y, d, hrest⟩ := s.scrambleEntries_eq s.cfgK.toNat s.cfgN.toNat
  refine ⟨Nat.le_of_eq hdraws.symm, fun j => ?coefs, fun j => ?values, fun a _ => ?kept,
    .of_none ?params (by omega) fun _ => id⟩
  case coefs => exact (State.coefEntry_scrambleY _ _ j).trans (s.coefEntry_scrambleCoef _ j)
  case values =>
    rw [State.yEntry_scrambleY, State.scrambleCoef_draws, State.yEntry_scrambleCoef]
    rfl
  case kept =>
    rw [hrest]
    rfl
  case params => rw [hrest]

/-- Abandoning a command gives its write set free draws and keeps the rest of the storage (R251, R47). -/
theorem State.abandon_of_decode {c : Word} {i : Instr} (s : State) (h : decode c = .ok i) :
    AbandonedAs i s (s.abandon c) := by
  rw [State.abandon, h]
  cases i with
  | nop | rseed | rnext | gmod | ginv | gadd | gsub | gmul | peval => exact .of_bytes (.refl s) rfl rfl
  | rgen | rmask | vrecon | shide | sreveal => exact .of_bytes (s.scrambleBytes_drawn _ _) rfl rfl
  | pshare => exact s.scrambleEntries_abandoned
  | psharebuf => exact .of_bytes ((s.scrambleBytes_drawn _ _).scrambleStrided _ _ _ _) rfl rfl
  | vsolve => exact s.scrambleCoef_abandoned

/-- A word that is no command has no write set (notes/assumptions/6.md). -/
theorem State.abandon_of_no_command {c : Word} {e : DecodeError} (s : State) (h : decode c = .error e) :
    s.abandon c = s := by
  rw [State.abandon, h]

/-! ### Soft reset -/

theorem State.softReset_of_idle {s : State} (h : s.phase = .idle) : s.softReset = s.resetRegisters := by
  rw [State.softReset, h]

theorem State.softReset_of_busy {s : State} {c : Word} (h : s.phase = .busy c) :
    s.softReset = (s.abandon c).resetRegisters := by
  rw [State.softReset, h]

/-- A soft reset leaves the reset state but for storage, the model's own fields and the host (R251). -/
theorem State.softReset_eq_resetWith (s : State) : s.softReset =
    { State.resetWith s.params with
      xtab := s.xtab
      ytab := s.softReset.ytab
      coef := s.softReset.coef
      dmem := s.softReset.dmem
      powerOns := s.powerOns
      draws := s.softReset.draws
      host := s.host
      schedule := s.schedule } := by
  rcases s.softReset_cases with ⟨_, h⟩ | ⟨c, _, h⟩
  · rw [h]
    rfl
  · obtain ⟨m, k, y, d, ha⟩ := s.abandon_eq c
    rw [h, ha]
    rfl

/-- Settles O54: the write set is that of the abandoned command, and the reset of the registers does not reach storage. -/
theorem softResetResetsTheRegisters : Obligations.SoftResetResetsTheRegisters := by
  intro s v hv
  have hwrite : s.busWrite .w32 0x004#32 v = s.softReset := (s.busWrite_register .ctrl v).trans (if_pos hv)
  refine ⟨s.softReset, hwrite, s.softReset_eq_resetWith, softReset_irq s, fun hidle => ?idle, fun c e hphase he => ?noCommand,
    fun c i hphase hi => ?command⟩
  case idle =>
    rw [State.softReset_of_idle hidle]
    exact ⟨rfl, rfl, rfl, rfl⟩
  case noCommand =>
    rw [State.softReset_of_busy hphase, State.abandon_of_no_command s he]
    exact ⟨rfl, rfl, rfl⟩
  case command =>
    obtain ⟨hdraws, hcoefs, hvalues, hkept, hdrawn⟩ := s.abandon_of_decode hi
    obtain ⟨byteDraw, hbytes, hinj⟩ := hdrawn.reads
    have hcoefDraw {j : Nat} (hj : j < coefsWritten i s) : s.draws + j < (s.abandon c).draws := by omega
    have hvalueDraw {j : Nat} (hj : j < valuesWritten i s) : s.draws + coefsWritten i s + j < (s.abandon c).draws := by omega
    have hapart {j l : Nat} (hj : j < coefsWritten i s) : s.draws + j ≠ s.draws + coefsWritten i s + l := by omega
    rw [State.softReset_of_busy hphase]
    exact ⟨fun j hj => (hcoefs j).trans (if_neg (Nat.not_lt.mpr hj)),
      fun j hj => (hvalues j).trans (if_neg (Nat.not_lt.mpr hj)), hkept,
      fun j => s.draws + j, fun j => s.draws + coefsWritten i s + j, byteDraw,
      fun j hj => ⟨Nat.le_add_right _ _, hcoefDraw hj, (hcoefs j).trans (if_pos hj)⟩,
      fun j hj => ⟨(Nat.le_add_right _ _).trans (Nat.le_add_right _ _), hvalueDraw hj, (hvalues j).trans (if_pos hj)⟩, hbytes,
      fun _ _ _ _ => Nat.add_left_cancel, fun _ _ _ _ => Nat.add_left_cancel, fun _ _ hj _ => hapart hj,
      hinj⟩

end Sys2Proof.Machine
end
